-- ==== Sys2Proof/Word.lean ====
section
/-! DEFINITION. The widths the spec names (00_scope.md rule R8) and the shape of the block's register
triples. Bit 0 is the least significant bit of every value. -/

namespace Sys2Proof

/-- `u8`: a selector (30_encoding.md rule R102). -/
abbrev U8 := BitVec 8

/-- `u16`: a period, a compare, a sample. -/
abbrev U16 := BitVec 16

/-- `u32`: a counter, a microsecond count, a response value. -/
abbrev U32 := BitVec 32

/-- A binary32 value travels as its 32-bit pattern (00_scope.md rule R10). -/
abbrev Float32Bits := BitVec 32

/-- A command word (30_encoding.md rule R100). -/
abbrev Command := BitVec 64

/-- STEP, the step counter: an integer in [0,6) (10_state.md rule R33, 90_conflicts.md C4). -/
abbrev StepIndex := Fin 6

/-- Phase A, B, C are 0, 1, 2; PWM channel i, enable line i, ADC channel i and buffer word i belong to
phase i (00_scope.md rule R11). -/
abbrev Phase := Fin 3

/-- Three like registers, one for each phase: CMP, EN, SAMPLE, SAMPLE_VALID and a row of ROLE_TABLE. -/
structure Three (α : Type) where
  e0 : α
  e1 : α
  e2 : α
  deriving DecidableEq, Repr

end Sys2Proof
end

