-- ==== Sys2Proof/Syntax.lean ====
section
/-! DEFINITION. The commands and events of the block: one constructor of `Instr` for each row of
spec/opcode_table.json (30_encoding.md rules R103 and R111), the agents that take them
(00_scope.md rule R6) and the names of the registers (10_state.md rule R55). -/

namespace Sys2Proof

/-- The commutation direction, DIR (10_state.md rule R40). -/
inductive Direction where
  | fwd
  | bwd
  deriving DecidableEq, Repr, Inhabited

/-- The role of one phase (00_scope.md glossary, PhaseRole). -/
inductive Role where
  | line
  | neutral
  | floating
  deriving DecidableEq, Repr

/-- One step of one agent. The first thirteen are HOST commands, the rest are events.
An operand that the spec draws (the sample `v`, the Bool `stop`) is an operand of the event. -/
inductive Instr where
  /-- 46_interface_reads.md rule R240 -/
  | nop
  /-- 44_commutation.md rule R197 -/
  | setDuty (fraction : Float32Bits)
  /-- 41_pwm_driver.md rule R135 -/
  | setPeriod (period : U16)
  /-- 41_pwm_driver.md rule R136 -/
  | enable (on : Bool)
  /-- 44_commutation.md rule R195 -/
  | setStep (step : U16)
  /-- 45_clock_step.md rule R222 -/
  | advanceFwd
  /-- 45_clock_step.md rule R223 -/
  | advanceBwd
  /-- 45_clock_step.md rule R225 -/
  | setCommPeriod (us : U32)
  /-- 41_pwm_driver.md rule R134 -/
  | pwmSetDuty (channel : U8) (fraction : Float32Bits)
  /-- 42_phase_enable.md rule R150 -/
  | pullPhase (which : U8) (up : Bool)
  /-- 46_interface_reads.md rule R241 -/
  | readNeutral
  /-- 46_interface_reads.md rule R242 -/
  | readErrcnt (which : U8)
  /-- 46_interface_reads.md rule R243 -/
  | readReg (reg : U8)
  /-- 45_clock_step.md rule R226 -/
  | ctExpire
  /-- 45_clock_step.md rule R228 -/
  | tick
  /-- 43_sense.md rule R163 -/
  | pwmTrigger
  /-- 43_sense.md rule R164 -/
  | adcConvBeat (v : U16)
  /-- 43_sense.md rule R165 -/
  | adcConvDrop
  /-- 43_sense.md rule R170 -/
  | dmaTe (stop : Bool)
  /-- 43_sense.md rule R171 -/
  | dmaDme (stop : Bool)
  /-- 43_sense.md rule R173 -/
  | tcBegin
  /-- 43_sense.md rule R174 -/
  | tcRead
  /-- 43_sense.md rule R176 -/
  | errHandle
  /-- 43_sense.md rule R177 -/
  | adcStatusHandle
  /-- 70_reset_and_hazards.md rule R290 -/
  | reset (initPeriod : U16) (initCommPeriodUs : U32) (direction : Direction)
  deriving DecidableEq, Repr

/-- The agents of 00_scope.md rule R6. -/
inductive Agent where
  | host
  | ctimer
  | cseq
  | pwmt
  | adc
  | dma
  | sense
  | adch
  | env
  deriving DecidableEq, Repr

/-- The agents that take a step together (00_scope.md rule R6). RESET belongs to none. -/
def Instr.agents : Instr → List Agent
  | .nop => [.host]
  | .setDuty _ => [.host]
  | .setPeriod _ => [.host]
  | .enable _ => [.host]
  | .setStep _ => [.host]
  | .advanceFwd => [.host]
  | .advanceBwd => [.host]
  | .setCommPeriod _ => [.host]
  | .pwmSetDuty _ _ => [.host]
  | .pullPhase _ _ => [.host]
  | .readNeutral => [.host]
  | .readErrcnt _ => [.host]
  | .readReg _ => [.host]
  | .ctExpire => [.ctimer]
  | .tick => [.cseq]
  | .pwmTrigger => [.pwmt]
  | .adcConvBeat _ => [.adc, .dma]
  | .adcConvDrop => [.adc]
  | .dmaTe _ => [.dma, .env]
  | .dmaDme _ => [.dma, .env]
  | .tcBegin => [.sense]
  | .tcRead => [.sense]
  | .errHandle => [.sense]
  | .adcStatusHandle => [.adch]
  | .reset _ _ _ => []

/-- The thirteen rows of format CMD: the steps of HOST. -/
def Instr.isCommand (i : Instr) : Bool := i.agents == [.host]

/-- The priority bands of 60_exceptions.md rule R269, highest first. -/
inductive Band where
  | commutation
  | sense
  | supervisory
  deriving DecidableEq, Repr

/-- The band of an agent; the hardware agents have none (60_exceptions.md rule R269). -/
def Agent.band : Agent → Option Band
  | .cseq => some .commutation
  | .sense => some .sense
  | .adch => some .sense
  | .host => some .supervisory
  | .ctimer => none
  | .pwmt => none
  | .adc => none
  | .dma => none
  | .env => none

/-- The software agents whose every step a halt disables (60_exceptions.md rule R264). -/
def Instr.isHandler (i : Instr) : Bool :=
  i.agents == [.cseq] || i.agents == [.sense] || i.agents == [.adch]

/-- The sense events, 43_sense.md. -/
def Instr.isSense (i : Instr) : Bool :=
  match i with
  | .pwmTrigger => true
  | .adcConvBeat _ => true
  | .adcConvDrop => true
  | .dmaTe _ => true
  | .dmaDme _ => true
  | .tcBegin => true
  | .tcRead => true
  | .errHandle => true
  | .adcStatusHandle => true
  | .nop => false
  | .setDuty _ => false
  | .setPeriod _ => false
  | .enable _ => false
  | .setStep _ => false
  | .advanceFwd => false
  | .advanceBwd => false
  | .setCommPeriod _ => false
  | .pwmSetDuty _ _ => false
  | .pullPhase _ _ => false
  | .readNeutral => false
  | .readErrcnt _ => false
  | .readReg _ => false
  | .ctExpire => false
  | .tick => false
  | .reset _ _ _ => false

/-- The three commands that read (30_encoding.md rule R109). -/
def Instr.isRead (i : Instr) : Bool :=
  match i with
  | .readNeutral => true
  | .readErrcnt _ => true
  | .readReg _ => true
  | .nop => false
  | .setDuty _ => false
  | .setPeriod _ => false
  | .enable _ => false
  | .setStep _ => false
  | .advanceFwd => false
  | .advanceBwd => false
  | .setCommPeriod _ => false
  | .pwmSetDuty _ _ => false
  | .pullPhase _ _ => false
  | .ctExpire => false
  | .tick => false
  | .pwmTrigger => false
  | .adcConvBeat _ => false
  | .adcConvDrop => false
  | .dmaTe _ => false
  | .dmaDme _ => false
  | .tcBegin => false
  | .tcRead => false
  | .errHandle => false
  | .adcStatusHandle => false
  | .reset _ _ _ => false

/-- RESET, whatever its arguments. -/
abbrev Instr.IsReset (i : Instr) : Prop := ∃ p us d, i = .reset p us d

/-- The registers that READ_REG names (10_state.md rule R55). -/
inductive Reg where
  | status
  | step
  | duty
  | period
  | cmp (channel : Phase)
  | commPeriod
  | neutral
  | sample (word : Phase)
  | teCnt
  | dmeCnt
  | ovrCnt
  | haltInfo
  | sensePos
  deriving DecidableEq, Repr

/-- Which step is taken next. -/
inductive Turn where
  /-- HOST issues its next command word, legal or not. -/
  | host
  /-- The agents of `i` take the step `i`; for a command, HOST issues exactly that command. -/
  | agent (i : Instr)
  deriving DecidableEq, Repr, Inhabited

/-- The open parameter BUS_BYTE_ORDER (20_memory.md rule R82). -/
inductive ByteOrder where
  | little
  | big
  deriving DecidableEq, Repr, Inhabited

end Sys2Proof
end

