-- ==== Sys2Proof/Decode.lean ====
section
/-! DEFINITION. Command words (30_encoding.md rules R100 to R109) and, for the events, the word this
model numbers them by: the spec gives an event only its 8-bit code (rule R111), and the place of its
operands above the code is the model's own (DESIGN CHOICE, safe, log 11). -/

namespace Sys2Proof

/-- Why a word is no instruction. -/
inductive DecodeError where
  /-- 30_encoding.md rule R105 -/
  | unassignedOpcode (op : U8)
  /-- 30_encoding.md rule R104 -/
  | reservedFieldNonzero (op : U8)
  /-- An event word whose code 30_encoding.md rule R111 does not list (the model's own channel). -/
  | unknownEvent (code : U8)
  /-- An event word with a bit set where the event has no operand (the model's own channel). -/
  | eventOperandNonzero (code : U8)
  deriving DecidableEq, Repr

/-! ## Fields of a command word (rule R101) -/

def opField (w : Command) : U8 := w.extractLsb' 56 8
def selField (w : Command) : U8 := w.extractLsb' 48 8
def immField (w : Command) : U16 := w.extractLsb' 32 16
def dataField (w : Command) : U32 := w.extractLsb' 0 32

/-- `w[63:32]`, the value HALT_INFO takes for IllegalCommand (rules R104, R105). -/
def highHalf (w : Command) : U32 := w.extractLsb' 32 32

/-- A Bool operand is IMM16[0] (rule R102). -/
def immBool (w : Command) : Bool := (immField w).getLsbD 0

/-- IMM16[15:1], which must be zero where IMM16 carries a Bool (rules R102, R104). -/
def immAboveBool (w : Command) : BitVec 15 := (immField w).extractLsb' 1 15

/-! ## Decoding a command word -/

/-- `i` if the opcode's reserved fields are zero (rule R104). -/
def unlessReserved (reservedZero : Bool) (i : Instr) (w : Command) : Except DecodeError Instr :=
  if reservedZero then .ok i else .error (.reservedFieldNonzero (opField w))

/-- The decoding of rule R109 with the opcode map of rule R103: the opcode is judged first, then the
reserved fields. -/
def decodeCommand (w : Command) : Except DecodeError Instr :=
  let selZero := selField w == 0
  let immZero := immField w == 0
  let dataZero := dataField w == 0
  match (opField w).toNat with
  | 0x00 => unlessReserved (selZero && immZero && dataZero) .nop w
  | 0x01 => unlessReserved (selZero && immZero) (.setDuty (dataField w)) w
  | 0x02 => unlessReserved (selZero && dataZero) (.setPeriod (immField w)) w
  | 0x03 => unlessReserved (selZero && immAboveBool w == 0 && dataZero) (.enable (immBool w)) w
  | 0x04 => unlessReserved (selZero && dataZero) (.setStep (immField w)) w
  | 0x05 => unlessReserved (selZero && immZero && dataZero) .advanceFwd w
  | 0x06 => unlessReserved (selZero && immZero && dataZero) .advanceBwd w
  | 0x07 => unlessReserved (selZero && immZero) (.setCommPeriod (dataField w)) w
  | 0x08 => unlessReserved immZero (.pwmSetDuty (selField w) (dataField w)) w
  | 0x09 => unlessReserved (immAboveBool w == 0 && dataZero) (.pullPhase (selField w) (immBool w)) w
  | 0x10 => unlessReserved (selZero && immZero && dataZero) .readNeutral w
  | 0x11 => unlessReserved (immZero && dataZero) (.readErrcnt (selField w)) w
  | 0x12 => unlessReserved (immZero && dataZero) (.readReg (selField w)) w
  | _ => .error (.unassignedOpcode (opField w))

/-! ## Decoding an event word (the model's own numbering, log 11) -/

def eventCode (w : BitVec 64) : U8 := w.extractLsb' 0 8

/-- The operand bits above the code. -/
def eventOperand (w : BitVec 64) : BitVec 56 := w.extractLsb' 8 56

/-- `i` if the operand bits the event does not use are zero. -/
def unlessOperand (unusedZero : Bool) (i : Instr) (w : BitVec 64) : Except DecodeError Instr :=
  if unusedZero then .ok i else .error (.eventOperandNonzero (eventCode w))

/-- The direction a bit stands for: 0 FWD, 1 BWD (10_state.md rule R40). -/
def directionOfBit (b : Bool) : Direction := if b then .bwd else .fwd

/-- DIR as a bit: 0 FWD, 1 BWD (10_state.md rule R40). -/
def bitOfDirection (d : Direction) : Bool :=
  match d with
  | .fwd => false
  | .bwd => true

/-- The event of an event word: the code of rule R111 in bits 7:0; the sample of ADC_CONV_BEAT in bits
23:8; `stop` in bit 8; RESET's INIT_PERIOD, INIT_COMM_PERIOD_US and COMM_DIRECTION in bits 23:8, 55:24
and 56. -/
def decodeEvent (w : BitVec 64) : Except DecodeError Instr :=
  let x := eventOperand w
  match (eventCode w).toNat with
  | 0x80 => unlessOperand (x == 0) .ctExpire w
  | 0x81 => unlessOperand (x == 0) .tick w
  | 0x82 => unlessOperand (x == 0) .pwmTrigger w
  | 0x83 => unlessOperand (x.extractLsb' 16 40 == 0) (.adcConvBeat (x.extractLsb' 0 16)) w
  | 0x84 => unlessOperand (x == 0) .adcConvDrop w
  | 0x85 => unlessOperand (x.extractLsb' 1 55 == 0) (.dmaTe (x.getLsbD 0)) w
  | 0x86 => unlessOperand (x.extractLsb' 1 55 == 0) (.dmaDme (x.getLsbD 0)) w
  | 0x87 => unlessOperand (x == 0) .tcBegin w
  | 0x88 => unlessOperand (x == 0) .tcRead w
  | 0x89 => unlessOperand (x == 0) .errHandle w
  | 0x8A => unlessOperand (x == 0) .adcStatusHandle w
  | 0x8F => unlessOperand (x.extractLsb' 49 7 == 0)
      (.reset (x.extractLsb' 0 16) (x.extractLsb' 16 32) (directionOfBit (x.getLsbD 48))) w
  | _ => .error (.unknownEvent (eventCode w))

/-! ## Encoding -/

/-- The opcode of a command (rule R103) or the code of an event (rule R111). -/
def Instr.code : Instr → U8
  | .nop => 0x00
  | .setDuty _ => 0x01
  | .setPeriod _ => 0x02
  | .enable _ => 0x03
  | .setStep _ => 0x04
  | .advanceFwd => 0x05
  | .advanceBwd => 0x06
  | .setCommPeriod _ => 0x07
  | .pwmSetDuty _ _ => 0x08
  | .pullPhase _ _ => 0x09
  | .readNeutral => 0x10
  | .readErrcnt _ => 0x11
  | .readReg _ => 0x12
  | .ctExpire => 0x80
  | .tick => 0x81
  | .pwmTrigger => 0x82
  | .adcConvBeat _ => 0x83
  | .adcConvDrop => 0x84
  | .dmaTe _ => 0x85
  | .dmaDme _ => 0x86
  | .tcBegin => 0x87
  | .tcRead => 0x88
  | .errHandle => 0x89
  | .adcStatusHandle => 0x8A
  | .reset _ _ _ => 0x8F

/-- OP, SEL, IMM16, DATA32 from the most significant bit (rule R100). -/
def commandWord (op sel : U8) (imm : U16) (data : U32) : Command := op ++ sel ++ imm ++ data

/-- A Bool operand in IMM16, bits 15:1 zero (rule R102). -/
def immOfBool (b : Bool) : U16 := 0#15 ++ BitVec.ofBool b

/-- The operand bits above the code (log 11). -/
def eventWord (code : U8) (operand : BitVec 56) : BitVec 64 := operand ++ code

/-- The word of an instruction: a command's word (rule R103), an event's by the model's numbering. -/
def encode (i : Instr) : BitVec 64 :=
  match i with
  | .nop => commandWord i.code 0 0 0
  | .setDuty fraction => commandWord i.code 0 0 fraction
  | .setPeriod period => commandWord i.code 0 period 0
  | .enable on => commandWord i.code 0 (immOfBool on) 0
  | .setStep step => commandWord i.code 0 step 0
  | .advanceFwd => commandWord i.code 0 0 0
  | .advanceBwd => commandWord i.code 0 0 0
  | .setCommPeriod us => commandWord i.code 0 0 us
  | .pwmSetDuty channel fraction => commandWord i.code channel 0 fraction
  | .pullPhase which up => commandWord i.code which (immOfBool up) 0
  | .readNeutral => commandWord i.code 0 0 0
  | .readErrcnt which => commandWord i.code which 0 0
  | .readReg reg => commandWord i.code reg 0 0
  | .ctExpire => eventWord i.code 0
  | .tick => eventWord i.code 0
  | .pwmTrigger => eventWord i.code 0
  | .adcConvBeat v => eventWord i.code (0#40 ++ v)
  | .adcConvDrop => eventWord i.code 0
  | .dmaTe stop => eventWord i.code (0#55 ++ BitVec.ofBool stop)
  | .dmaDme stop => eventWord i.code (0#55 ++ BitVec.ofBool stop)
  | .tcBegin => eventWord i.code 0
  | .tcRead => eventWord i.code 0
  | .errHandle => eventWord i.code 0
  | .adcStatusHandle => eventWord i.code 0
  | .reset p us d => eventWord i.code (0#7 ++ BitVec.ofBool (bitOfDirection d) ++ us ++ p)

/-- The instruction of a row of spec/opcode_table.json whose bits are `w`: a row of 64 bits is a
command word, a row of 8 bits the code of an event, its operands above it. -/
def decodeTableWord (nbits w : Nat) : Option Instr :=
  let word := BitVec.ofNat 64 (w % 2 ^ nbits)
  (if nbits ≤ 8 then decodeEvent word else decodeCommand word).toOption

end Sys2Proof
end

