-- ==== Sys2Proof/Machine/Binary32.lean ====
section
/-! DEFINITION. The duty numerics of 41_pwm_driver.md rules R130 to R133 on binary32 patterns
(00_scope.md rule R10). The exact value of a finite pattern is counted in units of 2^-149, the smallest
positive binary32, so that every product and every rounding is exact arithmetic on natural numbers. -/

namespace Sys2Proof.Machine

/-- The pattern without its sign: exponent and fraction. -/
def magnitude (f : Float32Bits) : Nat := f.toNat % 2 ^ 31

/-- The magnitude of infinity: exponent all ones, fraction zero. -/
abbrev infinityMagnitude : Nat := 0x7F800000

/-- The magnitude of 1.0. -/
abbrev oneMagnitude : Nat := 0x3F800000

def isNaN (f : Float32Bits) : Bool := decide (infinityMagnitude < magnitude f)

/-- The exact value, in units of 2^-149, of the finite binary32 of this magnitude. -/
def units (m : Nat) : Nat :=
  if m / 2 ^ 23 = 0 then m % 2 ^ 23 else (2 ^ 23 + m % 2 ^ 23) * 2 ^ (m / 2 ^ 23 - 1)

/-- The integer nearest to `n / d`, ties to even. -/
def roundHalfEven (n d : Nat) : Nat :=
  if 2 * (n % d) < d then n / d
  else if d < 2 * (n % d) then n / d + 1
  else n / d + n / d % 2

/-- How many powers of two above one unit the last place of a binary32 near `n / d` units lies. -/
def lastPlace (n d : Nat) : Nat := Nat.log2 (n / d) + 1 - 24

/-- The magnitude of the binary32 nearest to `n / d` units, ties to even, infinity past the largest
finite value. Adding a rounded significand to an exponent field lets the carry raise the exponent. -/
def nearestMagnitude (n d : Nat) : Nat :=
  min (lastPlace n d * 2 ^ 23 + roundHalfEven n (d * 2 ^ lastPlace n d)) infinityMagnitude

/-- A pattern from its sign and magnitude. -/
def ofMagnitude (negative : Bool) (m : Nat) : Float32Bits :=
  BitVec.ofNat 32 ((if negative then 2 ^ 31 else 0) + m)

/-- `float32(n)`: exact for `n` below 2^24 (rule R10). -/
def float32 (n : Nat) : Float32Bits := ofMagnitude false (nearestMagnitude (n * 2 ^ 149) 1)

/-- The IEEE 754 binary32 product, to nearest, ties to even (rule R131; PRESUMED where the spec itself
marks general knowledge, log 12). A NaN result has one fixed pattern; DutyToCompare never meets it. -/
def fmul32 (a b : Float32Bits) : Float32Bits :=
  let negative := a.msb != b.msb
  if isNaN a || isNaN b then 0x7FC00000
  else if magnitude a = infinityMagnitude ∨ magnitude b = infinityMagnitude then
    if magnitude a = 0 ∨ magnitude b = 0 then 0x7FC00000
    else ofMagnitude negative infinityMagnitude
  else ofMagnitude negative (nearestMagnitude (units (magnitude a) * units (magnitude b)) (2 ^ 149))

/-- Clamp01 (rule R130): NaN, -0.0 and every value at most 0 give +0.0, every value at least 1 gives
1.0. -/
def clamp01 (f : Float32Bits) : Float32Bits :=
  if isNaN f then 0
  else if f.msb || magnitude f == 0 then 0
  else if oneMagnitude ≤ magnitude f then 0x3F800000
  else f

/-- RoundHalfAway (rule R132): `floor(x + 1/2)` of a finite non-negative `x`. -/
def roundHalfAway (f : Float32Bits) : Nat := (units (magnitude f) + 2 ^ 148) / 2 ^ 149

/-- DutyToCompare (rule R133). -/
def dutyToCompare (f : Float32Bits) (per : U16) : U16 :=
  BitVec.ofNat 16 (min (roundHalfAway (fmul32 (clamp01 f) (float32 per.toNat))) per.toNat)

end Sys2Proof.Machine
end

