-- ==== Sys2Proof/Config.lean ====
section
/-! DEFINITION. What the spec leaves open. Every constant below is opaque: nothing in Lean can prove
a value of it, so a theorem holds whatever the value is. -/

namespace Sys2Proof

/-- The draws of 00_scope.md rule R9: the draw of number n. The state counts them, so that no two
draws share a number; a set of k values is drawn from by the remainder modulo k. DESIGN CHOICE, safe,
log 4. -/
opaque Config.draw : Nat → Nat

/-- Which step comes next once the state lists none (60_exceptions.md rules R270, R283; U23, U24).
DESIGN CHOICE, safe, log 1. -/
opaque Config.turn : Nat → Turn

/-- The word that HOST issues once the state lists none: any 64-bit word. DESIGN CHOICE, safe, log 3. -/
opaque Config.hostWord : Nat → Command

/-- INIT_PERIOD of the first RESET (00_scope.md rule R7). Log 6. -/
opaque Config.initPeriod : U16

/-- Any u32; `Config.initCommPeriodUs` is the parameter. -/
opaque Config.initCommPeriodRaw : U32

/-- INIT_COMM_PERIOD_US of the first RESET: any u32 that is at least 1 (00_scope.md rule R7). Log 6. -/
def Config.initCommPeriodUs : U32 :=
  if Config.initCommPeriodRaw = 0 then 1 else Config.initCommPeriodRaw

/-- COMM_DIRECTION (00_scope.md rule R7, 92_eei_decisions.md D25). Log 6. -/
opaque Config.commDirection : Direction

/-- Any number; `Config.adcBits` is the parameter. -/
opaque Config.adcBitsRaw : Nat

/-- ADC_BITS: any integer of 1..16 (00_scope.md rule R7, 92_eei_decisions.md D35). Log 6. -/
def Config.adcBits : Nat := Config.adcBitsRaw % 16 + 1

/-- OVR_REALIGN (00_scope.md rule R7, 43_sense.md rule R166, 92_eei_decisions.md D21). Log 6. -/
opaque Config.ovrRealign : Bool

/-- BUS_BYTE_ORDER: no rule depends on it (20_memory.md rule R82). Log 21. -/
opaque Config.busByteOrder : ByteOrder

/-- BLOCK_BASE: no rule depends on it (20_memory.md rule R95). Log 21. -/
opaque Config.blockBase : Nat

end Sys2Proof
end

