-- ==== Sys2Proof/Machine/State.lean ====
section
/-! DEFINITION. Everything the spec gives the block to hold (10_state.md), as plain data, and its
value after reset (10_state.md rule R59, 70_reset_and_hazards.md rule R290). -/

namespace Sys2Proof.Machine

/-- The halt causes of 60_exceptions.md rule R261; the codes 5 to 15 are never produced. -/
inductive HaltCause where
  | none
  | invalidStep
  | invalidChannel
  | invalidPhase
  | illegalCommand
  deriving DecidableEq, Repr

/-- TCH, the progress of the transfer-complete handler: IDLE or READk (10_state.md rule R51). -/
inductive TcHandler where
  | idle
  | read (k : Phase)
  deriving DecidableEq, Repr

/-- The records of HIST (10_state.md rule R58): one constructor for each `record(...)` of a rule. -/
inductive HistRecord where
  | nop
  | setDuty (fraction : Float32Bits)
  | setPeriod (period : U16)
  | enable (on : Bool)
  | setStep (step : U16)
  | advanceFwd
  | advanceBwd
  | setCommPeriod (us : U32)
  | pwmSetDuty (channel : Phase) (fraction : Float32Bits)
  | pullPhase (which : Phase) (up : Bool)
  | readNeutral
  | readErrCnt (which : Phase)
  | readReg (reg : Reg)
  /-- 44_commutation.md rule R192 -/
  | applyRole (phase : Phase) (role : Role)
  /-- 60_exceptions.md rule R262 -/
  | halt (cause : HaltCause) (info : U32)
  /-- 30_encoding.md rule R109 -/
  | refused (word : Command)
  | ctExpire
  | tick (step : StepIndex)
  | pwmTrigger
  | convBeat (channel : Phase) (index : Phase) (v : U16)
  | convDrop (channel : Phase)
  | dmaTe (stop : Bool)
  | dmaDme (stop : Bool)
  | tcBegin
  | tcRead (k : Phase) (sample : U16)
  | errHandle
  | adcStatusHandle
  deriving DecidableEq, Repr

/-- The response to a command: ACK and VALUE (30_encoding.md rule R110). -/
structure Response where
  ack   : Bool
  value : U32
  deriving DecidableEq, Repr

/-- The state of the block. Each field names its rule of 10_state.md unless it says otherwise. -/
structure State where
  /-- STEP, rule R33 -/
  stepIndex : StepIndex
  /-- DUTY, rule R34; read only through `readDuty` -/
  duty : Float32Bits
  /-- DUTY_VALID, rule R34 -/
  dutyValid : Bool
  /-- PERIOD, rule R36 -/
  period : U16
  /-- CMP, rule R37 -/
  cmp : Three U16
  /-- EN, rule R38 -/
  en : Three Bool
  /-- RUN, rule R39 -/
  run : Bool
  /-- DIR, rule R40 -/
  dir : Direction
  /-- COMM_PERIOD, rule R41 -/
  commPeriod : U32
  /-- CT_IF, rule R42 -/
  ctIf : Bool
  /-- SAMPLE, rule R43; read only through `readSample` -/
  sample : Three U16
  /-- SAMPLE_VALID, rule R43 -/
  sampleValid : Three Bool
  /-- NEUTRAL, rule R44; read only through `readNeutral` -/
  neutral : U16
  /-- NEUTRAL_VALID, rule R44 -/
  neutralValid : Bool
  /-- DMA_IDX, rule R45 -/
  dmaIdx : Phase
  /-- ADC_BUSY, rule R46 -/
  adcBusy : Bool
  /-- ADC_SEQ, rule R46 -/
  adcSeq : Phase
  /-- DMA_ACTIVE, rule R47 -/
  dmaActive : Bool
  /-- TC_IF, rule R48 -/
  tcIf : Bool
  /-- TE_IF, rule R48 -/
  teIf : Bool
  /-- DME_IF, rule R48 -/
  dmeIf : Bool
  /-- OVR_IF, rule R49 -/
  ovrIf : Bool
  /-- EOC_IF, rule R49 -/
  eocIf : Bool
  /-- TE_CNT, rule R50 -/
  teCnt : U32
  /-- DME_CNT, rule R50 -/
  dmeCnt : U32
  /-- OVR_CNT, rule R50 -/
  ovrCnt : U32
  /-- TCH, rule R51 -/
  tch : TcHandler
  /-- ACC, rule R51 -/
  acc : BitVec 18
  /-- HALTED, rule R52 -/
  halted : Bool
  /-- HALT_CAUSE, rule R52 -/
  haltCause : HaltCause
  /-- HALT_INFO, rule R52 -/
  haltInfo : U32
  /-- HIST, rule R58, oldest record first -/
  hist : List HistRecord
  /-- The response port: the response to the last command since RESET (30_encoding.md rule R110, log 10) -/
  response : Option Response
  /-- ADC_BITS: a parameter, no step writes it (00_scope.md rule R7, log 6) -/
  adcBits : Nat
  /-- OVR_REALIGN: a parameter, no step writes it (00_scope.md rule R7, log 6) -/
  ovrRealign : Bool
  /-- The model's own: the steps to be taken next (log 1) -/
  turns : List Turn
  /-- The model's own: the words HOST is still to issue, in issue order (log 3) -/
  hostWords : List Command
  /-- The model's own: how many free turns and free words have been used (log 1) -/
  freeInputs : Nat
  /-- The model's own: how many draws have been made (log 4) -/
  drawCount : Nat
  deriving DecidableEq, Repr

/-- The block has no condition that stops it: a programming error is a next state with HALTED = 1
(60_exceptions.md rule R262), and some step is always enabled (rule R281). So nobody raises a fault. -/
inductive Fault where
  deriving DecidableEq, Repr

/-- Why an instruction has no meaning. -/
inductive Refusal where
  /-- Raised by an arm of `exec` for an instruction not modelled yet; safe. No arm raises it. -/
  | notModelled (mnemonic : String)
  deriving DecidableEq, Repr

/-- What a meaning answers. -/
abbrev Result := Host.Outcome State Fault Refusal

/-- The reset values of 10_state.md rule R59, with RESET's arguments and the block's two fixed
parameters. DUTY, SAMPLE and NEUTRAL are unspecified there: they are unreadable while their VALID bit is
0, and the 0 stored for them is a DESIGN CHOICE (unsafe, log 5). -/
def State.constructed (initPeriod : U16) (initCommPeriodUs : U32) (direction : Direction)
    (adcBits : Nat) (ovrRealign : Bool) : State where
  stepIndex := 0
  duty := 0
  dutyValid := false
  period := initPeriod
  cmp := ⟨0, 0, 0⟩
  en := ⟨false, false, false⟩
  run := false
  dir := direction
  commPeriod := initCommPeriodUs
  ctIf := false
  sample := ⟨0, 0, 0⟩
  sampleValid := ⟨false, false, false⟩
  neutral := 0
  neutralValid := false
  dmaIdx := 0
  adcBusy := false
  adcSeq := 0
  dmaActive := true
  tcIf := false
  teIf := false
  dmeIf := false
  ovrIf := false
  eocIf := false
  teCnt := 0
  dmeCnt := 0
  ovrCnt := 0
  tch := .idle
  acc := 0
  halted := false
  haltCause := .none
  haltInfo := 0
  hist := []
  response := none
  adcBits := adcBits
  ovrRealign := ovrRealign
  turns := []
  hostWords := []
  freeInputs := 0
  drawCount := 0

/-- The block right after its first RESET, for whatever parameters it was built with. -/
def State.reset : State :=
  State.constructed Config.initPeriod Config.initCommPeriodUs Config.commDirection
    Config.adcBits Config.ovrRealign

end Sys2Proof.Machine
end

