-- ==== Sys2Proof/Machine/Operands.lean ====
section
/-! DEFINITION. The operand forms: how a selector or an immediate names a phase, a counter, a step or a
register (30_encoding.md rules R102 and R106), and the codes of the halt causes. -/

namespace Sys2Proof

/-- The register of one phase. -/
def Three.get {α : Type} (t : Three α) (p : Phase) : α :=
  match p with
  | 0 => t.e0
  | 1 => t.e1
  | 2 => t.e2

/-- The triple with the register of one phase replaced. -/
def Three.set {α : Type} (t : Three α) (p : Phase) (v : α) : Three α :=
  match p with
  | 0 => { t with e0 := v }
  | 1 => { t with e1 := v }
  | 2 => { t with e2 := v }

end Sys2Proof

namespace Sys2Proof.Machine

/-- SEL as a channel, a phase or an error counter: 0, 1, 2, or none (rules R134, R150, R242). -/
def phaseOf (sel : U8) : Option Phase :=
  if h : sel.toNat < 3 then some ⟨sel.toNat, h⟩ else none

/-- IMM16 as a step: 0..5, or none (44_commutation.md rule R195). -/
def stepOf (imm : U16) : Option StepIndex :=
  if h : imm.toNat < 6 then some ⟨imm.toNat, h⟩ else none

/-- SEL as a register number (10_state.md rule R55); 0x11..0xFF name none. -/
def regOf (sel : U8) : Option Reg :=
  match sel.toNat with
  | 0x00 => some .status
  | 0x01 => some .step
  | 0x02 => some .duty
  | 0x03 => some .period
  | 0x04 => some (.cmp 0)
  | 0x05 => some (.cmp 1)
  | 0x06 => some (.cmp 2)
  | 0x07 => some .commPeriod
  | 0x08 => some .neutral
  | 0x09 => some (.sample 0)
  | 0x0A => some (.sample 1)
  | 0x0B => some (.sample 2)
  | 0x0C => some .teCnt
  | 0x0D => some .dmeCnt
  | 0x0E => some .ovrCnt
  | 0x0F => some .haltInfo
  | 0x10 => some .sensePos
  | _ => none

/-- The number of a register (10_state.md rule R55). -/
def regNumber (r : Reg) : U8 :=
  match r with
  | .status => 0x00
  | .step => 0x01
  | .duty => 0x02
  | .period => 0x03
  | .cmp c => 0x04 + BitVec.ofNat 8 c.val
  | .commPeriod => 0x07
  | .neutral => 0x08
  | .sample w => 0x09 + BitVec.ofNat 8 w.val
  | .teCnt => 0x0C
  | .dmeCnt => 0x0D
  | .ovrCnt => 0x0E
  | .haltInfo => 0x0F
  | .sensePos => 0x10

/-- The code HALT_CAUSE holds (60_exceptions.md rule R261). -/
def HaltCause.code (c : HaltCause) : BitVec 4 :=
  match c with
  | .none => 0
  | .invalidStep => 1
  | .invalidChannel => 2
  | .invalidPhase => 3
  | .illegalCommand => 4

/-- The 8-bit code of the event a record stands for; a record of a command has none
(30_encoding.md rule R111). -/
def HistRecord.eventCode (r : HistRecord) : Option U8 :=
  match r with
  | .ctExpire => some 0x80
  | .tick _ => some 0x81
  | .pwmTrigger => some 0x82
  | .convBeat _ _ _ => some 0x83
  | .convDrop _ => some 0x84
  | .dmaTe _ => some 0x85
  | .dmaDme _ => some 0x86
  | .tcBegin => some 0x87
  | .tcRead _ _ => some 0x88
  | .errHandle => some 0x89
  | .adcStatusHandle => some 0x8A
  | .nop => none
  | .setDuty _ => none
  | .setPeriod _ => none
  | .enable _ => none
  | .setStep _ => none
  | .advanceFwd => none
  | .advanceBwd => none
  | .setCommPeriod _ => none
  | .pwmSetDuty _ _ => none
  | .pullPhase _ _ => none
  | .readNeutral => none
  | .readErrCnt _ => none
  | .readReg _ => none
  | .applyRole _ _ => none
  | .halt _ _ => none
  | .refused _ => none

end Sys2Proof.Machine
end

