-- ==== Sys2Proof/Machine/Flags.lean ====
section
/-! DEFINITION. The composite read views STATUS and SENSE_POS (10_state.md rules R53 and R54), the
enabling conditions that the flags make, and the counting of a handled flag. -/

namespace Sys2Proof.Machine

/-- The field `v` of a view with its bit 0 at bit `n`. -/
def fieldAt {w : Nat} (n : Nat) (v : BitVec w) : U32 := v.setWidth 32 <<< n

/-- The one-bit field `b` at bit `n`. -/
def bitAt (n : Nat) (b : Bool) : U32 := fieldAt n (BitVec.ofBool b)

/-- STATUS (10_state.md rule R53); bits 31:19 read as zero. -/
def statusView (s : State) : U32 :=
  bitAt 0 s.run |||
  bitAt 1 s.halted |||
  bitAt 2 s.dutyValid |||
  bitAt 3 (s.dir == .bwd) |||
  bitAt 4 s.ctIf |||
  bitAt 5 s.tcIf |||
  bitAt 6 s.teIf |||
  bitAt 7 s.dmeIf |||
  bitAt 8 s.ovrIf |||
  bitAt 9 s.eocIf |||
  bitAt 10 s.dmaActive |||
  bitAt 11 s.neutralValid |||
  fieldAt 12 s.haltCause.code |||
  bitAt 16 s.en.e0 |||
  bitAt 17 s.en.e1 |||
  bitAt 18 s.en.e2

/-- SENSE_POS (10_state.md rule R54); bits 31:8 read as zero. -/
def sensePosView (s : State) : U32 :=
  fieldAt 0 (BitVec.ofNat 2 s.dmaIdx.val) |||
  fieldAt 2 (BitVec.ofNat 2 s.adcSeq.val) |||
  bitAt 4 s.adcBusy |||
  bitAt 5 s.sampleValid.e0 |||
  bitAt 6 s.sampleValid.e1 |||
  bitAt 7 s.sampleValid.e2

/-- A HOST command is enabled unless the sense handler is part-way (60_exceptions.md rule R270). -/
def hostEnabled (s : State) : Bool := s.tch == .idle

/-- 45_clock_step.md rule R228 -/
def tickEnabled (s : State) : Bool := !s.halted && s.ctIf

/-- 43_sense.md rule R163 -/
def pwmTriggerEnabled (s : State) : Bool := s.run

/-- 43_sense.md rule R164, for a sample the converter can give (DEDUCED, safe, log 8). -/
def convBeatEnabled (v : U16) (s : State) : Bool :=
  s.adcBusy && s.dmaActive && decide (v.toNat < 2 ^ s.adcBits)

/-- 43_sense.md rule R165 -/
def convDropEnabled (s : State) : Bool := s.adcBusy

/-- 43_sense.md rules R170 and R171 -/
def dmaErrorEnabled (s : State) : Bool := s.dmaActive

/-- 43_sense.md rule R173 -/
def tcBeginEnabled (s : State) : Bool := !s.halted && s.tch == .idle && s.tcIf

/-- 43_sense.md rule R174 -/
def tcReadEnabled (s : State) : Bool := !s.halted && s.tch != .idle

/-- 43_sense.md rule R176 -/
def errHandleEnabled (s : State) : Bool := !s.halted && (s.teIf || s.dmeIf)

/-- 43_sense.md rule R177 -/
def adcStatusHandleEnabled (s : State) : Bool := !s.halted && (s.ovrIf || s.eocIf)

/-- Whether the step may be the next one (60_exceptions.md rules R264 and R270 with each event's own
rule). CT_EXPIRE and RESET always may (45_clock_step.md rule R226, 70_reset_and_hazards.md rule R291). -/
def enabled (i : Instr) (s : State) : Bool :=
  match i with
  | .nop => hostEnabled s
  | .setDuty _ => hostEnabled s
  | .setPeriod _ => hostEnabled s
  | .enable _ => hostEnabled s
  | .setStep _ => hostEnabled s
  | .advanceFwd => hostEnabled s
  | .advanceBwd => hostEnabled s
  | .setCommPeriod _ => hostEnabled s
  | .pwmSetDuty _ _ => hostEnabled s
  | .pullPhase _ _ => hostEnabled s
  | .readNeutral => hostEnabled s
  | .readErrcnt _ => hostEnabled s
  | .readReg _ => hostEnabled s
  | .ctExpire => true
  | .tick => tickEnabled s
  | .pwmTrigger => pwmTriggerEnabled s
  | .adcConvBeat v => convBeatEnabled v s
  | .adcConvDrop => convDropEnabled s
  | .dmaTe _ => dmaErrorEnabled s
  | .dmaDme _ => dmaErrorEnabled s
  | .tcBegin => tcBeginEnabled s
  | .tcRead => tcReadEnabled s
  | .errHandle => errHandleEnabled s
  | .adcStatusHandle => adcStatusHandleEnabled s
  | .reset _ _ _ => true

/-- An error counter after its handler has seen the flag: one more, modulo 2^32, if the flag was set
(10_state.md rule R50, 43_sense.md rules R176 and R177). -/
def countIf (flag : Bool) (n : U32) : U32 := if flag then n + 1 else n

end Sys2Proof.Machine
end

