-- ==== Sys2Proof/Machine/Ops.lean ====
section
/-! DEFINITION. The operations the meanings share: the history and the response, draws and the reads of
state nothing has written, the halt, the refusal of words, the role table and do_set_step, the step
counter, the scan, and the two ways an agent's step is gated. -/

namespace Sys2Proof.Machine

/-! ## History and response (00_scope.md rule R9, 30_encoding.md rule R110) -/

/-- `record(e)` -/
def record (e : HistRecord) (s : State) : State := { s with hist := s.hist ++ [e] }

/-- `respond(v)` -/
def respond (v : U32) (s : State) : State := { s with response := some ⟨true, v⟩ }

/-- A response with ACK = 0. -/
def respondNack (v : U32) (s : State) : State := { s with response := some ⟨false, v⟩ }

/-! ## Draws and reads (00_scope.md rule R9, 92_eei_decisions.md D39; log 4) -/

/-- `draw(0 .. n - 1)`: the number drawn. -/
def drawn (n : Nat) (s : State) : Nat := Config.draw s.drawCount % n

/-- The state after one draw. -/
def countDraw (s : State) : State := { s with drawCount := s.drawCount + 1 }

/-- A read of DUTY (10_state.md rule R35): while it is unwritten, a draw of a binary32 of [+0.0, 1.0],
whose patterns are 0 to that of 1.0. -/
def readDuty (s : State) : Float32Bits × State :=
  if s.dutyValid then (s.duty, s)
  else (BitVec.ofNat 32 (drawn (oneMagnitude + 1) s), countDraw s)

/-- A read of NEUTRAL (10_state.md rule R44): while it is unwritten, a draw of a u16. -/
def readNeutral (s : State) : U16 × State :=
  if s.neutralValid then (s.neutral, s)
  else (BitVec.ofNat 16 (drawn (2 ^ 16) s), countDraw s)

/-- A read of SAMPLE[k] (10_state.md rule R43): while it is unwritten, a draw below 2^ADC_BITS. -/
def readSample (k : Phase) (s : State) : U16 × State :=
  if s.sampleValid.get k then (s.sample.get k, s)
  else (BitVec.ofNat 16 (drawn (2 ^ s.adcBits) s), countDraw s)

/-- The value of a register zero-extended to 32 bits, and the state after the read, which differs only
in the draws made (10_state.md rule R55, 20_memory.md rule R86). -/
def readRegister (r : Reg) (s : State) : U32 × State :=
  match r with
  | .status => (statusView s, s)
  | .step => (BitVec.ofNat 32 s.stepIndex.val, s)
  | .duty => readDuty s
  | .period => (s.period.setWidth 32, s)
  | .cmp c => ((s.cmp.get c).setWidth 32, s)
  | .commPeriod => (s.commPeriod, s)
  | .neutral => ((readNeutral s).1.setWidth 32, (readNeutral s).2)
  | .sample k => ((readSample k s).1.setWidth 32, (readSample k s).2)
  | .teCnt => (s.teCnt, s)
  | .dmeCnt => (s.dmeCnt, s)
  | .ovrCnt => (s.ovrCnt, s)
  | .haltInfo => (s.haltInfo, s)
  | .sensePos => (sensePosView s, s)

/-- The error counter READ_ERRCNT selects (46_interface_reads.md rule R242). -/
def errorCounter (which : Phase) (s : State) : U32 :=
  match which with
  | 0 => s.teCnt
  | 1 => s.dmeCnt
  | 2 => s.ovrCnt

/-! ## The halt and the refusal of words -/

/-- `halt(cause, info)`, the programming-error abort (60_exceptions.md rule R262). It is the block's only
exception; only RESET leaves it (rule R265). -/
def haltWith (cause : HaltCause) (info : U32) (s : State) : State :=
  respondNack (cause.code.setWidth 32)
    (record (.halt cause info)
      { s with halted := true, haltCause := cause, haltInfo := info, run := false })

/-- A word refused while HALTED = 1: ACK = 0, VALUE = 0, nothing else (30_encoding.md rule R109,
60_exceptions.md rule R264). -/
def refuseWord (w : Command) (s : State) : State := respondNack 0 (record (.refused w) s)

/-- An illegal word: refused while HALTED = 1, else the halt IllegalCommand with the word's high half
(30_encoding.md rules R104, R105, R109, 46_interface_reads.md rules R242, R243). -/
def rejectWord (w : Command) (s : State) : State :=
  if s.halted then refuseWord w s else haltWith .illegalCommand (highHalf w) s

/-! ## How a step is gated -/

/-- An event: its effect where it is enabled. Where it is not, the spec has no such step, and the turn
passes with nothing changed (DESIGN CHOICE, safe, log 2). -/
def whenEnabled (isEnabled : Bool) (effect : State → State) (s : State) : Result :=
  .next (if isEnabled then effect s else s)

/-- A command that is no read: held while the sense handler is part-way (60_exceptions.md rule R270),
refused while HALTED = 1 (30_encoding.md rule R109), else its effect. -/
def hostWrite (i : Instr) (effect : State → State) (s : State) : Result :=
  whenEnabled (hostEnabled s) (fun s => if s.halted then refuseWord (encode i) s else effect s) s

/-- A read: held while the sense handler is part-way, else its effect, HALTED or not; an operand that
names nothing makes the word illegal (30_encoding.md rule R109). -/
def hostRead (i : Instr) (effect : Option (State → State)) (s : State) : Result :=
  whenEnabled (hostEnabled s)
    (fun s => match effect with
      | some f => f s
      | none => rejectWord (encode i) s) s

/-! ## Roles (44_commutation.md rules R190 to R194) -/

/-- ROLE_TABLE (rule R190): phases A, B, C for each step. -/
def roleTable (k : StepIndex) : Three Role :=
  match k with
  | 0 => ⟨.line, .neutral, .floating⟩
  | 1 => ⟨.floating, .neutral, .line⟩
  | 2 => ⟨.neutral, .floating, .line⟩
  | 3 => ⟨.neutral, .line, .floating⟩
  | 4 => ⟨.floating, .line, .neutral⟩
  | 5 => ⟨.line, .floating, .neutral⟩

/-- The phase of a row that has the role; every row has each role once (rule R191). -/
def phaseWith (row : Three Role) (r : Role) : Phase :=
  if row.e0 = r then 0 else if row.e1 = r then 1 else 2

/-- ApplyRole (rule R192), CMP before EN. -/
def applyRole (p : Phase) (r : Role) (d : Float32Bits) (s : State) : State :=
  let fraction : Float32Bits := match r with
    | .floating => 0
    | .neutral => 0x3F800000
    | .line => d
  record (.applyRole p r)
    { s with cmp := s.cmp.set p (dutyToCompare fraction s.period)
             en := s.en.set p (decide (r = .line)) }

/-- do_set_step (rule R193): DUTY is read once, then Floating, Neutral, Line (rule R194). -/
def doSetStep (k : StepIndex) (s : State) : State :=
  let row := roleTable k
  let d := (readDuty s).1
  applyRole (phaseWith row .line) .line d
    (applyRole (phaseWith row .neutral) .neutral d
      (applyRole (phaseWith row .floating) .floating d (readDuty s).2))

/-! ## Step counter (45_clock_step.md rules R220, R221, R227, R228) -/

def advanceForward (k : StepIndex) : StepIndex := ⟨(k.val + 1) % 6, Nat.mod_lt _ (by decide)⟩

def advanceBackward (k : StepIndex) : StepIndex := ⟨(k.val + 5) % 6, Nat.mod_lt _ (by decide)⟩

/-- The step after `k` in the fixed direction. -/
def advance (d : Direction) (k : StepIndex) : StepIndex :=
  match d with
  | .fwd => advanceForward k
  | .bwd => advanceBackward k

/-- `max(us, 1)`: a commutation period is at least 1 (45_clock_step.md rule R225, 10_state.md rule R41). -/
def clampCommPeriod (us : U32) : U32 := if us = 0 then 1 else us

/-! ## Scan and buffer position (43_sense.md rules R162, R164, R166) -/

/-- `(x + 1) mod 3` -/
def nextPhase (p : Phase) : Phase := ⟨(p.val + 1) % 3, Nat.mod_lt _ (by decide)⟩

/-- advance_scan (rule R162). -/
def advanceScan (s : State) : State :=
  if s.adcSeq = 2 then { s with adcSeq := 0, adcBusy := false }
  else { s with adcSeq := nextPhase s.adcSeq }

/-- realign_after_drop (rule R166), where OVR_REALIGN holds. -/
def realignAfterDrop (s : State) : State :=
  if s.ovrRealign then { s with dmaIdx := nextPhase s.dmaIdx } else s

/-! ## The next turn and the next word (the model's own input, log 1 and log 3) -/

/-- The step that is to be taken next. -/
def nextTurn (s : State) : Turn := s.turns.headD (Config.turn s.freeInputs)

/-- The state once the turn has been read. -/
def popTurn (s : State) : State :=
  match s.turns with
  | [] => { s with freeInputs := s.freeInputs + 1 }
  | _ :: rest => { s with turns := rest }

/-- The word that HOST issues next. -/
def nextWord (s : State) : Command := s.hostWords.headD (Config.hostWord s.freeInputs)

/-- The state once HOST has issued the word. -/
def popWord (s : State) : State :=
  match s.hostWords with
  | [] => { s with freeInputs := s.freeInputs + 1 }
  | _ :: rest => { s with hostWords := rest }

/-- The turn that issues `w`, and `w`, stand first. -/
def placeCommand (w : Command) (s : State) : State :=
  { s with turns := .host :: s.turns, hostWords := w :: s.hostWords }

/-- The turn of the event that the event word stands for stands first; a word that stands for none
places nothing. -/
def placeEvent (w : BitVec 64) (s : State) : State :=
  match decodeEvent w with
  | .ok i => { s with turns := .agent i :: s.turns }
  | .error _ => s

end Sys2Proof.Machine
end

