-- ==== Sys2Proof/Machine/Clock.lean ====
section
/-! DEFINITION. The commutation clock and the step counter: ADVANCE_FWD, ADVANCE_BWD, SET_COMM_PERIOD,
CT_EXPIRE and TICK (45_clock_step.md). -/

namespace Sys2Proof.Machine

/-- 45_clock_step.md rule R222 -/
def execAdvanceFwd (s : State) : Result :=
  hostWrite .advanceFwd
    (fun s => respond 0 (record .advanceFwd { s with stepIndex := advanceForward s.stepIndex })) s

/-- 45_clock_step.md rule R223 -/
def execAdvanceBwd (s : State) : Result :=
  hostWrite .advanceBwd
    (fun s => respond 0 (record .advanceBwd { s with stepIndex := advanceBackward s.stepIndex })) s

/-- 45_clock_step.md rule R225 -/
def execSetCommPeriod (us : U32) (s : State) : Result :=
  hostWrite (.setCommPeriod us)
    (fun s => respond 0 (record (.setCommPeriod us) { s with commPeriod := clampCommPeriod us })) s

/-- 45_clock_step.md rule R226 -/
def execCtExpire (s : State) : Result :=
  whenEnabled (enabled .ctExpire s) (fun s => record .ctExpire { s with ctIf := true }) s

/-- The service of one expiry (45_clock_step.md rule R228): the step's roles, the counter, and the flag
last. -/
def serviceTick (s : State) : State :=
  record (.tick s.stepIndex)
    { doSetStep s.stepIndex s with
      stepIndex := advance s.dir s.stepIndex
      ctIf := false }

/-- 45_clock_step.md rule R228 -/
def execTick (s : State) : Result := whenEnabled (enabled .tick s) serviceTick s

end Sys2Proof.Machine
end

