-- ==== Sys2Proof/Machine/Commutation.lean ====
section
/-! DEFINITION. The commutation state machine: SET_STEP and SET_DUTY (44_commutation.md). -/

namespace Sys2Proof.Machine

/-- 44_commutation.md rule R197 -/
def execSetDuty (fraction : Float32Bits) (s : State) : Result :=
  hostWrite (.setDuty fraction)
    (fun s => respond 0 (record (.setDuty fraction)
      { s with duty := clamp01 fraction, dutyValid := true })) s

/-- 44_commutation.md rule R195 -/
def execSetStep (step : U16) (s : State) : Result :=
  hostWrite (.setStep step)
    (fun s => match stepOf step with
      | none => haltWith .invalidStep (step.setWidth 32) s
      | some k => respond 0 (record (.setStep step) (doSetStep k s))) s

end Sys2Proof.Machine
end

