-- ==== Sys2Proof/Machine/Driver.lean ====
section
/-! DEFINITION. The PWM duty sequencer and the phase-enable driver: PWM_SET_DUTY, SET_PERIOD, ENABLE
(41_pwm_driver.md) and PULL_PHASE (42_phase_enable.md). -/

namespace Sys2Proof.Machine

/-- 41_pwm_driver.md rule R135 -/
def execSetPeriod (period : U16) (s : State) : Result :=
  hostWrite (.setPeriod period)
    (fun s => respond 0 (record (.setPeriod period) { s with period := period })) s

/-- 41_pwm_driver.md rule R136 -/
def execEnable (on : Bool) (s : State) : Result :=
  hostWrite (.enable on) (fun s => respond 0 (record (.enable on) { s with run := on })) s

/-- 41_pwm_driver.md rule R134 -/
def execPwmSetDuty (channel : U8) (fraction : Float32Bits) (s : State) : Result :=
  hostWrite (.pwmSetDuty channel fraction)
    (fun s => match phaseOf channel with
      | none => haltWith .invalidChannel (channel.setWidth 32) s
      | some c => respond 0 (record (.pwmSetDuty c fraction)
          { s with cmp := s.cmp.set c (dutyToCompare fraction s.period) })) s

/-- 42_phase_enable.md rule R150 -/
def execPullPhase (which : U8) (up : Bool) (s : State) : Result :=
  hostWrite (.pullPhase which up)
    (fun s => match phaseOf which with
      | none => haltWith .invalidPhase (which.setWidth 32) s
      | some p => respond 0 (record (.pullPhase p up) { s with en := s.en.set p up })) s

end Sys2Proof.Machine
end

