-- ==== Sys2Proof/Machine/Interface.lean ====
section
/-! DEFINITION. NOP and the diagnostic reads: READ_NEUTRAL, READ_ERRCNT, READ_REG
(46_interface_reads.md). -/

namespace Sys2Proof.Machine

/-- 46_interface_reads.md rule R240 -/
def execNop (s : State) : Result := hostWrite .nop (fun s => respond 0 (record .nop s)) s

/-- 46_interface_reads.md rule R241 -/
def execReadNeutral (s : State) : Result :=
  hostRead .readNeutral
    (some fun s => record .readNeutral
      (respond ((readNeutral s).1.setWidth 32) (readNeutral s).2)) s

/-- 46_interface_reads.md rule R242 -/
def execReadErrcnt (which : U8) (s : State) : Result :=
  hostRead (.readErrcnt which)
    ((phaseOf which).map fun c s => record (.readErrCnt c) (respond (errorCounter c s) s)) s

/-- 46_interface_reads.md rule R243 -/
def execReadReg (reg : U8) (s : State) : Result :=
  hostRead (.readReg reg)
    ((regOf reg).map fun r s =>
      record (.readReg r) (respond (readRegister r s).1 (readRegister r s).2)) s

end Sys2Proof.Machine
end

