-- ==== Sys2Proof/Machine/Sense.lean ====
section
/-! DEFINITION. The ADC/DMA circular-buffer synchronizer: the conversion, error and handler events of
43_sense.md. -/

namespace Sys2Proof.Machine

/-- 43_sense.md rule R163 -/
def execPwmTrigger (s : State) : Result :=
  whenEnabled (enabled .pwmTrigger s)
    (fun s => record .pwmTrigger
      (if s.adcBusy then s else { s with adcBusy := true, adcSeq := 0 })) s

/-- The DMA's transfer of one sample (43_sense.md rule R164). -/
def transferSample (v : U16) (s : State) : State :=
  { s with sample := s.sample.set s.dmaIdx v
           sampleValid := s.sampleValid.set s.dmaIdx true
           eocIf := true
           tcIf := s.tcIf || s.dmaIdx == 2
           dmaIdx := nextPhase s.dmaIdx }

/-- 43_sense.md rule R164 -/
def execAdcConvBeat (v : U16) (s : State) : Result :=
  whenEnabled (enabled (.adcConvBeat v) s)
    (fun s => record (.convBeat s.adcSeq s.dmaIdx v) (advanceScan (transferSample v s))) s

/-- 43_sense.md rule R165 -/
def execAdcConvDrop (s : State) : Result :=
  whenEnabled (enabled .adcConvDrop s)
    (fun s => record (.convDrop s.adcSeq)
      (advanceScan (realignAfterDrop { s with ovrIf := true, eocIf := true }))) s

/-- 43_sense.md rule R170 -/
def execDmaTe (stop : Bool) (s : State) : Result :=
  whenEnabled (enabled (.dmaTe stop) s)
    (fun s => record (.dmaTe stop) { s with teIf := true, dmaActive := s.dmaActive && !stop }) s

/-- 43_sense.md rule R171 -/
def execDmaDme (stop : Bool) (s : State) : Result :=
  whenEnabled (enabled (.dmaDme stop) s)
    (fun s => record (.dmaDme stop) { s with dmeIf := true, dmaActive := s.dmaActive && !stop }) s

/-- 43_sense.md rule R173 -/
def execTcBegin (s : State) : Result :=
  whenEnabled (enabled .tcBegin s)
    (fun s => record .tcBegin { s with tcIf := false, acc := 0, tch := .read 0 }) s

/-- The neutral estimate of an exact sum of three samples (43_sense.md rule R175). -/
def neutralOf (sum : BitVec 18) : U16 := BitVec.ofNat 16 (sum.toNat / 3)

/-- One read of the handler at word `k`, and at word 2 the estimate (43_sense.md rule R174). -/
def readWord (k : Phase) (s : State) : State :=
  let sum := s.acc + (readSample k s).1.setWidth 18
  let t := (readSample k s).2
  record (.tcRead k (readSample k s).1)
    (if k = 2 then { t with neutral := neutralOf sum, neutralValid := true, acc := 0, tch := .idle }
     else { t with acc := sum, tch := .read (nextPhase k) })

/-- 43_sense.md rule R174 -/
def execTcRead (s : State) : Result :=
  whenEnabled (enabled .tcRead s)
    (fun s => match s.tch with
      | .idle => s
      | .read k => readWord k s) s

/-- 43_sense.md rule R176 -/
def execErrHandle (s : State) : Result :=
  whenEnabled (enabled .errHandle s)
    (fun s => record .errHandle
      { s with teCnt := countIf s.teIf s.teCnt
               teIf := false
               dmeCnt := countIf s.dmeIf s.dmeCnt
               dmeIf := false }) s

/-- 43_sense.md rule R177 -/
def execAdcStatusHandle (s : State) : Result :=
  whenEnabled (enabled .adcStatusHandle s)
    (fun s => record .adcStatusHandle
      { s with ovrCnt := countIf s.ovrIf s.ovrCnt
               ovrIf := false
               eocIf := false }) s

end Sys2Proof.Machine
end

