-- ==== Sys2Proof/Machine/System.lean ====
section
/-! DEFINITION. RESET (70_reset_and_hazards.md). -/

namespace Sys2Proof.Machine

/-- Every state element at its reset value (70_reset_and_hazards.md rule R290, 10_state.md rule R59).
The fixed parameters stay (rule R290), and so do the model's own inputs and counters (DESIGN CHOICE,
safe, log 9). An INIT_COMM_PERIOD_US of 0, which the parameter's type excludes, is clamped as
SET_COMM_PERIOD clamps it (DEDUCED, unsafe, log 7). -/
def resetBlock (initPeriod : U16) (initCommPeriodUs : U32) (direction : Direction) (s : State) : State :=
  { State.constructed initPeriod (clampCommPeriod initCommPeriodUs) direction s.adcBits s.ovrRealign with
    turns := s.turns
    hostWords := s.hostWords
    freeInputs := s.freeInputs
    drawCount := s.drawCount }

/-- 70_reset_and_hazards.md rules R290 and R291 -/
def execReset (initPeriod : U16) (initCommPeriodUs : U32) (direction : Direction) (s : State) : Result :=
  whenEnabled (enabled (.reset initPeriod initCommPeriodUs direction) s)
    (resetBlock initPeriod initCommPeriodUs direction) s

end Sys2Proof.Machine
end

