-- ==== Sys2Proof/Machine/Dispatch.lean ====
section
/-! DEFINITION. One arm for each constructor of Instr. -/

namespace Sys2Proof.Machine

def exec (i : Instr) (s : State) : Host.Outcome State Fault Refusal :=
  match i with
  | .nop => Sys2Proof.Machine.execNop s
  | .setDuty fraction => Sys2Proof.Machine.execSetDuty fraction s
  | .setPeriod period => Sys2Proof.Machine.execSetPeriod period s
  | .enable on => Sys2Proof.Machine.execEnable on s
  | .setStep step => Sys2Proof.Machine.execSetStep step s
  | .advanceFwd => Sys2Proof.Machine.execAdvanceFwd s
  | .advanceBwd => Sys2Proof.Machine.execAdvanceBwd s
  | .setCommPeriod us => Sys2Proof.Machine.execSetCommPeriod us s
  | .pwmSetDuty channel fraction => Sys2Proof.Machine.execPwmSetDuty channel fraction s
  | .pullPhase which up => Sys2Proof.Machine.execPullPhase which up s
  | .readNeutral => Sys2Proof.Machine.execReadNeutral s
  | .readErrcnt which => Sys2Proof.Machine.execReadErrcnt which s
  | .readReg reg => Sys2Proof.Machine.execReadReg reg s
  | .ctExpire => Sys2Proof.Machine.execCtExpire s
  | .tick => Sys2Proof.Machine.execTick s
  | .pwmTrigger => Sys2Proof.Machine.execPwmTrigger s
  | .adcConvBeat v => Sys2Proof.Machine.execAdcConvBeat v s
  | .adcConvDrop => Sys2Proof.Machine.execAdcConvDrop s
  | .dmaTe stop => Sys2Proof.Machine.execDmaTe stop s
  | .dmaDme stop => Sys2Proof.Machine.execDmaDme stop s
  | .tcBegin => Sys2Proof.Machine.execTcBegin s
  | .tcRead => Sys2Proof.Machine.execTcRead s
  | .errHandle => Sys2Proof.Machine.execErrHandle s
  | .adcStatusHandle => Sys2Proof.Machine.execAdcStatusHandle s
  | .reset initPeriod initCommPeriodUs direction => Sys2Proof.Machine.execReset initPeriod initCommPeriodUs direction s

end Sys2Proof.Machine
end

