-- ==== Sys2Proof/Machine/Step.lean ====
section
/-! DEFINITION. One step of the machine: the agent whose turn it is takes its step. -/

namespace Sys2Proof.Machine

/-- HOST's turn: while the sense handler is part-way the word is held, still first in line
(60_exceptions.md rule R270; log 3). Else HOST issues its next word, which is executed or, if it decodes to
nothing, rejected (30_encoding.md rule R109). -/
def hostTurn (s : State) : Host.Outcome State Fault Refusal :=
  if hostEnabled s then
    match decodeCommand (nextWord s) with
    | .ok i => exec i (popWord s)
    | .error _ => .next (rejectWord (nextWord s) (popWord s))
  else .next s

/-- One atomic step of one agent (20_memory.md rules R87 and R88). -/
def step (s : State) : Host.Outcome State Fault Refusal :=
  match nextTurn s with
  | .host => hostTurn (popTurn s)
  | .agent i => exec i (popTurn s)

/-- `s` with the row's instruction placed where the next step takes it: a command word as the first
word of HOST, whose turn comes next; an event as the next turn. -/
def State.withFetchWord (s : State) (nbits w : Nat) : State :=
  let word := BitVec.ofNat 64 (w % 2 ^ nbits)
  if nbits ≤ 8 then placeEvent word s else placeCommand word s

end Sys2Proof.Machine
end

