-- ==== Sys2Proof/Machine/Assembler.lean ====
section
/-! DEFINITION. The assembler forms and pseudo-instructions of 30_encoding.md rules R112 and R113, as
data: which command a line with these operands stands for. The spelling of a line as characters is not
modelled (log 20). -/

namespace Sys2Proof.Machine

/-- A fraction operand: a decimal real `digits / 10 ^ places` with a sign, or `0x` and a raw pattern. -/
inductive AsmFraction where
  | decimal (negative : Bool) (digits places : Nat)
  | pattern (p : Float32Bits)
  deriving DecidableEq, Repr

/-- The counter operand of READ_ERRCNT: `TE`, `DME`, `OVR` or a number. -/
inductive AsmCounter where
  | te
  | dme
  | ovr
  | number (n : Nat)
  deriving DecidableEq, Repr

/-- The register operand of READ_REG: a name of 10_state.md rule R55 or a number. -/
inductive AsmReg where
  | name (r : Reg)
  | number (n : Nat)
  deriving DecidableEq, Repr

/-- One line: the forms of rule R112, then the pseudo-instructions of rule R113. -/
inductive AsmLine where
  | nop
  | setDuty (f : AsmFraction)
  | setPeriod (n : Nat)
  | enable (on : Bool)
  | setStep (n : Nat)
  | advanceFwd
  | advanceBwd
  | setCommPeriod (n : Nat)
  | pwmSetDuty (channel : Nat) (f : AsmFraction)
  | pullPhase (which : Nat) (up : Bool)
  | readNeutral
  | readErrcnt (c : AsmCounter)
  | readReg (r : AsmReg)
  | disable
  | start
  | pullUp (which : Nat)
  | pullDown (which : Nat)
  | readStatus
  | readStep
  | readDuty
  deriving DecidableEq, Repr

/-- The nearest binary32, ties to even, or the raw pattern (rule R112). -/
def fractionBits (f : AsmFraction) : Float32Bits :=
  match f with
  | .decimal negative digits places =>
    ofMagnitude negative (nearestMagnitude (digits * 2 ^ 149) (10 ^ places))
  | .pattern p => p

/-- An unsigned operand, if it fits its field. -/
def unsignedOperand (bits n : Nat) : Option (BitVec bits) :=
  if n < 2 ^ bits then some (BitVec.ofNat bits n) else none

/-- A counter operand as SEL. That a number of 3 or more is accepted, up to SEL's width, is the model's
choice (DESIGN CHOICE, log 24). -/
def counterNumber (c : AsmCounter) : Nat :=
  match c with
  | .te => 0
  | .dme => 1
  | .ovr => 2
  | .number n => n

/-- A register operand as SEL. That a number which names no register is accepted, up to SEL's width, is the
model's choice (DESIGN CHOICE, log 24). -/
def registerNumber (r : AsmReg) : Nat :=
  match r with
  | .name r => (regNumber r).toNat
  | .number n => n

/-- The command of a line, if its operands fit their fields; a selector is not held to a narrower range
(DESIGN CHOICE for READ_ERRCNT and READ_REG, log 24). -/
def assemble (l : AsmLine) : Option Instr :=
  match l with
  | .nop => some .nop
  | .setDuty f => some (.setDuty (fractionBits f))
  | .setPeriod n => (unsignedOperand 16 n).map .setPeriod
  | .enable on => some (.enable on)
  | .setStep n => (unsignedOperand 16 n).map .setStep
  | .advanceFwd => some .advanceFwd
  | .advanceBwd => some .advanceBwd
  | .setCommPeriod n => (unsignedOperand 32 n).map .setCommPeriod
  | .pwmSetDuty channel f => (unsignedOperand 8 channel).map (fun c => .pwmSetDuty c (fractionBits f))
  | .pullPhase which up => (unsignedOperand 8 which).map (fun p => .pullPhase p up)
  | .readNeutral => some .readNeutral
  | .readErrcnt c => (unsignedOperand 8 (counterNumber c)).map .readErrcnt
  | .readReg r => (unsignedOperand 8 (registerNumber r)).map .readReg
  | .disable => some (.enable false)
  | .start => some (.enable true)
  | .pullUp which => (unsignedOperand 8 which).map (fun p => .pullPhase p true)
  | .pullDown which => (unsignedOperand 8 which).map (fun p => .pullPhase p false)
  | .readStatus => some (.readReg (regNumber .status))
  | .readStep => some (.readReg (regNumber .step))
  | .readDuty => some (.readReg (regNumber .duty))

/-- The word of a line. -/
def assembleWord (l : AsmLine) : Option Command := (assemble l).map encode

end Sys2Proof.Machine
end

