-- ==== Sys2Proof/Safety.lean ====
section
/-! DEFINITION. What claims are stated in: when HOST is served, the output table of 44_commutation.md rule
R200, the legal states (10_state.md rule R56 with the ranges of its other rules), what the history says
since RESET, and runs with the fairness they may be assumed to have (60_exceptions.md rules R281, R283). -/

namespace Sys2Proof.Machine

/-! ## Words of the claims -/

/-- HOST's command is neither held nor refused (60_exceptions.md rules R264 and R270). -/
abbrev State.Ready (s : State) : Prop := s.tch = .idle ∧ s.halted = false

/-- The CMP column of rule R200: `line` is L, `period` is P. -/
def compareRow (k : StepIndex) (line period : U16) : Three U16 :=
  match k with
  | 0 => ⟨line, period, 0⟩
  | 1 => ⟨0, period, line⟩
  | 2 => ⟨period, 0, line⟩
  | 3 => ⟨period, line, 0⟩
  | 4 => ⟨0, line, period⟩
  | 5 => ⟨line, 0, period⟩

/-- The EN column of rule R200. -/
def enableRow (k : StepIndex) : Three Bool :=
  match k with
  | 0 => ⟨true, false, false⟩
  | 1 => ⟨false, false, true⟩
  | 2 => ⟨false, false, true⟩
  | 3 => ⟨false, true, false⟩
  | 4 => ⟨false, true, false⟩
  | 5 => ⟨true, false, false⟩

/-- The write order column of rule R200, with the role each phase is given. -/
def roleRecords (k : StepIndex) : List HistRecord :=
  match k with
  | 0 => [.applyRole 2 .floating, .applyRole 1 .neutral, .applyRole 0 .line]
  | 1 => [.applyRole 0 .floating, .applyRole 1 .neutral, .applyRole 2 .line]
  | 2 => [.applyRole 1 .floating, .applyRole 0 .neutral, .applyRole 2 .line]
  | 3 => [.applyRole 2 .floating, .applyRole 0 .neutral, .applyRole 1 .line]
  | 4 => [.applyRole 0 .floating, .applyRole 2 .neutral, .applyRole 1 .line]
  | 5 => [.applyRole 1 .floating, .applyRole 2 .neutral, .applyRole 0 .line]

/-- The one-bit fields of STATUS with their bits (10_state.md rule R53). -/
def statusTable (s : State) : List (Nat × Bool) :=
  [(0, s.run), (1, s.halted), (2, s.dutyValid), (3, s.dir == .bwd), (4, s.ctIf), (5, s.tcIf),
   (6, s.teIf), (7, s.dmeIf), (8, s.ovrIf), (9, s.eocIf), (10, s.dmaActive), (11, s.neutralValid),
   (16, s.en.e0), (17, s.en.e1), (18, s.en.e2)]

/-- The register map of 10_state.md rule R55: number, register, value, and whether it is written. -/
def readTable (s : State) : List (U8 × Reg × U32 × Bool) :=
  [(0x00, .status, statusView s, true),
   (0x01, .step, BitVec.ofNat 32 s.stepIndex.val, true),
   (0x02, .duty, s.duty, s.dutyValid),
   (0x03, .period, s.period.setWidth 32, true),
   (0x04, .cmp 0, s.cmp.e0.setWidth 32, true),
   (0x05, .cmp 1, s.cmp.e1.setWidth 32, true),
   (0x06, .cmp 2, s.cmp.e2.setWidth 32, true),
   (0x07, .commPeriod, s.commPeriod, true),
   (0x08, .neutral, s.neutral.setWidth 32, s.neutralValid),
   (0x09, .sample 0, s.sample.e0.setWidth 32, s.sampleValid.e0),
   (0x0A, .sample 1, s.sample.e1.setWidth 32, s.sampleValid.e1),
   (0x0B, .sample 2, s.sample.e2.setWidth 32, s.sampleValid.e2),
   (0x0C, .teCnt, s.teCnt, true),
   (0x0D, .dmeCnt, s.dmeCnt, true),
   (0x0E, .ovrCnt, s.ovrCnt, true),
   (0x0F, .haltInfo, s.haltInfo, true),
   (0x10, .sensePos, sensePosView s, true)]

/-- The counters READ_ERRCNT selects (46_interface_reads.md rule R242). -/
def errorTable (s : State) : List (Phase × U32) := [(0, s.teCnt), (1, s.dmeCnt), (2, s.ovrCnt)]

/-- How many phases have EN = 1. -/
def enableCount (en : Three Bool) : Nat := en.e0.toNat + en.e1.toNat + en.e2.toNat

/-- The steps of a list, one after the other. -/
def execAll (is : List Instr) (s : State) : Result :=
  match is with
  | [] => .next s
  | i :: rest =>
    match exec i s with
    | .next t => execAll rest t
    | .fault r => .fault r
    | .refused r => .refused r

/-- What the commutation rules read and write (43_sense.md rule R178): everything but the sense state,
the history, the response and the inputs. -/
abbrev SameCommutation (s t : State) : Prop :=
  s.stepIndex = t.stepIndex ∧ s.duty = t.duty ∧ s.dutyValid = t.dutyValid ∧ s.period = t.period ∧
  s.cmp = t.cmp ∧ s.en = t.en ∧ s.run = t.run ∧ s.dir = t.dir ∧ s.commPeriod = t.commPeriod ∧
  s.ctIf = t.ctIf ∧ s.halted = t.halted ∧ s.haltCause = t.haltCause ∧ s.haltInfo = t.haltInfo

/-! ## The legal states -/

/-- The parameters are in their ranges (00_scope.md rule R7). -/
abbrev State.ParametersLegal (s : State) : Prop := 1 ≤ s.adcBits ∧ s.adcBits ≤ 16

/-- DUTY_VALID = 1 implies DUTY in [+0.0, 1.0], not NaN and not -0.0 (rules R34 and R56): the pattern is
at most that of 1.0. -/
abbrev State.DutyLegal (s : State) : Prop := s.dutyValid = true → s.duty.toNat ≤ oneMagnitude

/-- COMM_PERIOD is at least 1 (rule R41). -/
abbrev State.CommPeriodLegal (s : State) : Prop := s.commPeriod ≠ 0

/-- ADC_BUSY = 0 implies ADC_SEQ = 0 (rule R56). -/
abbrev State.ScanLegal (s : State) : Prop := s.adcBusy = false → s.adcSeq = 0

/-- Every written buffer word and a written NEUTRAL is below 2^ADC_BITS (00_scope.md rule R7,
43_sense.md rules R164 and R175). -/
abbrev State.SamplesLegal (s : State) : Prop :=
  (∀ i : Phase, s.sampleValid.get i = true → (s.sample.get i).toNat < 2 ^ s.adcBits) ∧
  (s.neutralValid = true → s.neutral.toNat < 2 ^ s.adcBits)

/-- ACC is 0 outside the handler and at most the sum of k samples at READk, so never above
3 x 65535 (rules R51 and R56). -/
abbrev State.AccLegal (s : State) : Prop :=
  (s.tch = .idle → s.acc = 0) ∧
  (∀ k : Phase, s.tch = .read k → s.acc.toNat ≤ k.val * (2 ^ s.adcBits - 1))

/-- HALTED = 0 has no cause and no info (rules R52 and R56); HALTED = 1 has a cause of rule R261, a
stopped PWM (rule R262) and no handler part-way, since only a HOST command halts (60_exceptions.md rules
R270 and R274). -/
abbrev State.HaltLegal (s : State) : Prop :=
  (s.halted = false → s.haltCause = .none ∧ s.haltInfo = 0) ∧
  (s.halted = true → s.haltCause ≠ .none ∧ s.run = false ∧ s.tch = .idle)

/-- The invariant of 10_state.md rule R56, but for its last sentence. -/
structure State.Legal (s : State) : Prop where
  parameters : s.ParametersLegal
  duty : s.DutyLegal
  commPeriod : s.CommPeriodLegal
  scan : s.ScanLegal
  samples : s.SamplesLegal
  acc : s.AccLegal
  halt : s.HaltLegal

/-! ## What the history says since RESET (10_state.md rule R58) -/

/-- The step's own record: a do_set_step has run. -/
def HistRecord.isStep (r : HistRecord) : Bool :=
  match r with
  | .setStep _ => true
  | .tick _ => true
  | _ => false

def HistRecord.isPull (r : HistRecord) : Bool :=
  match r with
  | .pullPhase _ _ => true
  | _ => false

def HistRecord.isTick (r : HistRecord) : Bool :=
  match r with
  | .tick _ => true
  | _ => false

def HistRecord.isDrop (r : HistRecord) : Bool :=
  match r with
  | .convDrop _ => true
  | _ => false

/-- Whether a do_set_step has run since RESET with no PULL_PHASE after it. -/
def stepAppliedLast (hist : List HistRecord) : Bool :=
  hist.foldl (fun b r => r.isStep || (b && !r.isPull)) false

/-- CT_EXPIRE events since RESET. -/
def expiries (hist : List HistRecord) : Nat := hist.countP (fun r => r == .ctExpire)

/-- TICK events since RESET. -/
def ticks (hist : List HistRecord) : Nat := hist.countP HistRecord.isTick

/-- ADC_CONV_DROP events since RESET. -/
def drops (hist : List HistRecord) : Nat := hist.countP HistRecord.isDrop

/-- The history holds a beat of channel `c` into word `i`, and `before` is what stands before it. -/
def BeatAfter (hist before : List HistRecord) (c i : Phase) : Prop :=
  ∃ v after, hist = before ++ .convBeat c i v :: after

/-- The number of TICKs is at most the number of CT_EXPIREs (45_clock_step.md rule R229); an expiry that
is pending has not been spent. -/
abbrev State.TicksPaidFor (s : State) : Prop := ticks s.hist + s.ctIf.toNat ≤ expiries s.hist

/-- Exactly one phase has EN = 1 after a do_set_step and until a PULL_PHASE (10_state.md rule R56, last
sentence). -/
abbrev State.OneLine (s : State) : Prop := stepAppliedLast s.hist = true → enableCount s.en = 1

/-- The data contract (43_sense.md rule R161): with OVR_REALIGN, or before any drop, the DMA writes the
word of the channel that converts, and every beat so far went to its channel's word. -/
abbrev State.WordsKeepChannel (s : State) : Prop :=
  s.ScanLegal ∧
  (s.ovrRealign = true ∨ drops s.hist = 0 →
    s.dmaIdx = s.adcSeq ∧ ∀ before c i, BeatAfter s.hist before c i → c = i)

/-- The shifted mapping (43_sense.md rule R166): without OVR_REALIGN, after k drops channel c is written to
word (c - k) mod 3. -/
abbrev State.WordsShifted (s : State) : Prop :=
  s.ScanLegal ∧
  (s.ovrRealign = false →
    (s.dmaIdx.val + drops s.hist) % 3 = s.adcSeq.val ∧
    ∀ before c i, BeatAfter s.hist before c i → (i.val + drops before) % 3 = c.val)

/-! ## Runs -/

/-- The instruction that the next step of `s` takes, if it takes one: none while HOST is held and for a
word that decodes to nothing. -/
def nextInstr (s : State) : Option Instr :=
  match nextTurn s with
  | .agent i => some i
  | .host => if hostEnabled s then (decodeCommand (nextWord (popTurn s))).toOption else none

/-- An infinite run under any order of the agents and any words of HOST (60_exceptions.md rule R270): the
states, and for each state whose turn it is and the word that HOST would issue. -/
structure Run where
  states : Nat → State
  turn : Nat → Turn
  word : Nat → Command

/-- The n-th state with its turn and its word placed. -/
def Run.input (r : Run) (n : Nat) : State :=
  { r.states n with turns := [r.turn n], hostWords := [r.word n] }

/-- Each state is the step of the one before. -/
def Run.Steps (r : Run) : Prop := ∀ n, step (r.input n) = .next (r.states (n + 1))

/-- The step from state `n` is `i`, and it is enabled there. -/
def Run.Takes (r : Run) (n : Nat) (i : Instr) : Prop :=
  nextInstr (r.input n) = some i ∧ enabled i (r.states n) = true

/-- The five handler steps that weak fairness is about (60_exceptions.md rule R283 (b)). -/
def handlerSteps : List Instr := [.tick, .tcBegin, .tcRead, .errHandle, .adcStatusHandle]

/-- The fairness of 60_exceptions.md rule R283, (a) to (d); (e) asks nothing of HOST. -/
structure Run.Fair (r : Run) : Prop where
  expiry : ∀ n, ∃ m, n ≤ m ∧ ((r.states m).halted = true ∨ r.Takes m .ctExpire)
  handler : ∀ i ∈ handlerSteps, ∀ n, ∃ m, n ≤ m ∧ (enabled i (r.states m) = false ∨ r.Takes m i)
  trigger : ∀ n, ∃ m, n ≤ m ∧
    ((r.states m).run = false ∨ (r.states m).halted = true ∨ r.Takes m .pwmTrigger)
  conversion : ∀ n, ∃ m, n ≤ m ∧
    ((r.states m).adcBusy = false ∨ (r.states m).halted = true ∨ r.Takes m .adcConvDrop ∨
      ∃ v, r.Takes m (.adcConvBeat v))

end Sys2Proof.Machine
end

