-- ==== Sys2Proof/Certificates/Slice0/Obligations.lean ====
section
/-! DEFINITION. The statements for the provers. A statement that gives a whole next state as a record
update of `s` is at once the result, the completion and the frame: every field it does not name is
unchanged. -/

open Sys2Proof Sys2Proof.Machine

/-! ## Encoding -/

/-- Every command's word decodes to that command, at every operand value (30_encoding.md rules R100 to
R103). -/
def Obligations.EncodedCommandDecodesToItself : Prop :=
  ∀ i : Instr, i.isCommand = true → decodeCommand (encode i) = .ok i

/-- A word that decodes is the encoding of what it decodes to, so no bit of it is dropped
(30_encoding.md rules R101 to R104). -/
def Obligations.DecodedCommandHasItsWord : Prop :=
  ∀ (w : Command) (i : Instr), decodeCommand w = .ok i → i.isCommand = true ∧ encode i = w

/-- The model's own numbering of the events (log 11) reads back every event with its operands. -/
def Obligations.EncodedEventDecodesToItself : Prop :=
  ∀ i : Instr, i.isCommand = false → decodeEvent (encode i) = .ok i

/-- A word decodes to an opcode's command exactly when it matches the row of spec/opcode_table.json, mask
and match: the opcode is the row's and every reserved bit is zero (30_encoding.md rules R103 and R104). -/
def Obligations.CommandWordsAreTheTableRows : Prop :=
  ∀ w : Command,
    (decodeCommand w = .ok .nop ↔ w &&& 0xFFFFFFFFFFFFFFFF = 0x0000000000000000) ∧
    ((∃ f, decodeCommand w = .ok (.setDuty f)) ↔ w &&& 0xFFFFFFFF00000000 = 0x0100000000000000) ∧
    ((∃ p, decodeCommand w = .ok (.setPeriod p)) ↔ w &&& 0xFFFF0000FFFFFFFF = 0x0200000000000000) ∧
    ((∃ b, decodeCommand w = .ok (.enable b)) ↔ w &&& 0xFFFFFFFEFFFFFFFF = 0x0300000000000000) ∧
    ((∃ k, decodeCommand w = .ok (.setStep k)) ↔ w &&& 0xFFFF0000FFFFFFFF = 0x0400000000000000) ∧
    (decodeCommand w = .ok .advanceFwd ↔ w &&& 0xFFFFFFFFFFFFFFFF = 0x0500000000000000) ∧
    (decodeCommand w = .ok .advanceBwd ↔ w &&& 0xFFFFFFFFFFFFFFFF = 0x0600000000000000) ∧
    ((∃ n, decodeCommand w = .ok (.setCommPeriod n)) ↔
      w &&& 0xFFFFFFFF00000000 = 0x0700000000000000) ∧
    ((∃ c f, decodeCommand w = .ok (.pwmSetDuty c f)) ↔
      w &&& 0xFF00FFFF00000000 = 0x0800000000000000) ∧
    ((∃ p b, decodeCommand w = .ok (.pullPhase p b)) ↔
      w &&& 0xFF00FFFEFFFFFFFF = 0x0900000000000000) ∧
    (decodeCommand w = .ok .readNeutral ↔ w &&& 0xFFFFFFFFFFFFFFFF = 0x1000000000000000) ∧
    ((∃ c, decodeCommand w = .ok (.readErrcnt c)) ↔
      w &&& 0xFF00FFFFFFFFFFFF = 0x1100000000000000) ∧
    ((∃ r, decodeCommand w = .ok (.readReg r)) ↔ w &&& 0xFF00FFFFFFFFFFFF = 0x1200000000000000)

/-- The encoding examples of 30_encoding.md rule R114, assembled and decoded. -/
def Obligations.SpecExampleWordsDecode : Prop :=
  (assembleWord (.setDuty (.decimal false 4 1)) = some 0x010000003ECCCCCD ∧
    decodeCommand 0x010000003ECCCCCD = .ok (.setDuty 0x3ECCCCCD)) ∧
  (assembleWord (.setDuty (.decimal false 10 1)) = some 0x010000003F800000 ∧
    decodeCommand 0x010000003F800000 = .ok (.setDuty 0x3F800000)) ∧
  (assembleWord (.setPeriod 2000) = some 0x020007D000000000 ∧
    decodeCommand 0x020007D000000000 = .ok (.setPeriod 2000)) ∧
  (assembleWord (.enable true) = some 0x0300000100000000 ∧
    decodeCommand 0x0300000100000000 = .ok (.enable true)) ∧
  (assembleWord (.setStep 0) = some 0x0400000000000000 ∧
    decodeCommand 0x0400000000000000 = .ok (.setStep 0)) ∧
  (assembleWord (.setStep 6) = some 0x0400000600000000 ∧
    decodeCommand 0x0400000600000000 = .ok (.setStep 6)) ∧
  (assembleWord (.setCommPeriod 300) = some 0x070000000000012C ∧
    decodeCommand 0x070000000000012C = .ok (.setCommPeriod 300)) ∧
  (assembleWord (.pwmSetDuty 2 (.decimal false 5 1)) = some 0x080200003F000000 ∧
    decodeCommand 0x080200003F000000 = .ok (.pwmSetDuty 2 0x3F000000)) ∧
  (assembleWord (.pullPhase 1 true) = some 0x0901000100000000 ∧
    decodeCommand 0x0901000100000000 = .ok (.pullPhase 1 true)) ∧
  (assembleWord (.readErrcnt .ovr) = some 0x1102000000000000 ∧
    decodeCommand 0x1102000000000000 = .ok (.readErrcnt 2)) ∧
  (assembleWord (.readReg (.name (.cmp 0))) = some 0x1204000000000000 ∧
    decodeCommand 0x1204000000000000 = .ok (.readReg 4))

/-! ## Duty numerics -/

/-- Clamp01, case by case on the fields of the binary32 pattern (41_pwm_driver.md rule R130). -/
def Obligations.ClampZeroOneCases : Prop :=
  ∀ f : Float32Bits,
    (f.extractLsb' 23 8 = 0xFF → f.extractLsb' 0 23 ≠ 0 → clamp01 f = 0) ∧
    (f.msb = true → clamp01 f = 0) ∧
    (f = 0 → clamp01 f = 0) ∧
    (0x3F800000 ≤ f.toNat → f.toNat ≤ 0x7F800000 → clamp01 f = 0x3F800000) ∧
    (0 < f.toNat → f.toNat < 0x3F800000 → clamp01 f = f)

/-- The binary32 product of a fraction of [+0.0, 1.0] and a period is finite, non-negative and as near to
the exact product as any binary32, the even one at a tie; the period itself is exact in binary32
(00_scope.md rule R10, 41_pwm_driver.md rule R131). Values are in units of 2^-149, products in units of
2^-298. -/
def Obligations.ProductIsNearestBinary32 : Prop :=
  ∀ (f : Float32Bits) (per : Nat), f.toNat ≤ oneMagnitude → per < 2 ^ 24 →
    let a := units (magnitude f)
    let b := units (magnitude (float32 per))
    let p := fmul32 f (float32 per)
    b = per * 2 ^ 149 ∧ p.msb = false ∧ magnitude p < infinityMagnitude ∧
    ∀ m, m < infinityMagnitude →
      Nat.dist (units (magnitude p) * 2 ^ 149) (a * b) ≤ Nat.dist (units m * 2 ^ 149) (a * b) ∧
      (Nat.dist (units (magnitude p) * 2 ^ 149) (a * b) = Nat.dist (units m * 2 ^ 149) (a * b) →
        m ≠ magnitude p → magnitude p % 2 = 0)

/-- DutyToCompare at the ends of its range, its bound, and that the final `min` never changes the result
(41_pwm_driver.md rule R133, its consequences). -/
def Obligations.DutyToCompareStaysWithinPeriod : Prop :=
  ∀ (f : Float32Bits) (per : U16),
    dutyToCompare 0 per = 0 ∧
    dutyToCompare 0x3F800000 per = per ∧
    dutyToCompare f 0 = 0 ∧
    (dutyToCompare f per).toNat ≤ per.toNat ∧
    (dutyToCompare f per).toNat = roundHalfAway (fmul32 (clamp01 f) (float32 per.toNat))

/-- DutyToCompare is non-decreasing in the fraction over [0, 1] (41_pwm_driver.md rule R133). On
non-negative patterns the order of the numbers is the order of the values. -/
def Obligations.DutyToCompareIsMonotone : Prop :=
  ∀ (f g : Float32Bits) (per : U16), f.toNat ≤ g.toNat → g.toNat ≤ oneMagnitude →
    (dutyToCompare f per).toNat ≤ (dutyToCompare g per).toNat

/-- The compare is the duty times the period within one half and the product's rounding error, which is at
most 2^-9 (95_test_vectors.md L1.3). In units of 2^-149. -/
def Obligations.DutyToCompareWithinRounding : Prop :=
  ∀ (f : Float32Bits) (per : U16), f.toNat ≤ oneMagnitude →
    2 ^ 9 * Nat.dist ((dutyToCompare f per).toNat * 2 ^ 149) (units (magnitude f) * per.toNat) ≤
      (2 ^ 8 + 1) * 2 ^ 149

/-! ## Commands -/

/-- NOP is the all-zero word and no other word of its opcode; it changes no state and responds 0; while
HALTED it is refused (46_interface_reads.md rule R240). -/
def Obligations.NopCompletes : Prop :=
  (∀ w : Command, w.extractLsb' 56 8 = 0 → (decodeCommand w = .ok .nop ↔ w = 0)) ∧
  (∀ s : State, s.Ready →
    exec .nop s = .next { s with
      hist := s.hist ++ [.nop]
      response := some ⟨true, 0⟩ }) ∧
  (∀ s : State, s.tch = .idle → s.halted = true →
    exec .nop s = .next { s with
      hist := s.hist ++ [.refused 0]
      response := some ⟨false, 0⟩ })

/-- SET_DUTY stores Clamp01 of its operand, marks DUTY written and touches no output (44_commutation.md
rules R197 and R198). -/
def Obligations.SetDutyCompletes : Prop :=
  ∀ f : Float32Bits,
    decodeCommand (0x01#8 ++ 0#8 ++ 0#16 ++ f) = .ok (.setDuty f) ∧
    ∀ s : State, s.Ready →
      exec (.setDuty f) s = .next { s with
        duty := clamp01 f
        dutyValid := true
        hist := s.hist ++ [.setDuty f]
        response := some ⟨true, 0⟩ }

/-- SET_PERIOD writes PERIOD, any u16, and recomputes no compare (41_pwm_driver.md rule R135). -/
def Obligations.SetPeriodCompletes : Prop :=
  ∀ p : U16,
    decodeCommand (0x02#8 ++ 0#8 ++ p ++ 0#32) = .ok (.setPeriod p) ∧
    ∀ s : State, s.Ready →
      exec (.setPeriod p) s = .next { s with
        period := p
        hist := s.hist ++ [.setPeriod p]
        response := some ⟨true, 0⟩ }

/-- ENABLE writes RUN only (41_pwm_driver.md rule R136). -/
def Obligations.EnableCompletes : Prop :=
  ∀ on : Bool,
    decodeCommand (0x03#8 ++ 0#8 ++ (0#15 ++ BitVec.ofBool on) ++ 0#32) = .ok (.enable on) ∧
    ∀ s : State, s.Ready →
      exec (.enable on) s = .next { s with
        run := on
        hist := s.hist ++ [.enable on]
        response := some ⟨true, 0⟩ }

/-- SET_STEP gives exactly the outputs and the write order of the table of 44_commutation.md rule R200,
leaves STEP alone and changes nothing else (rule R193). `d` is DUTY as it is read once: the written duty,
or one draw.
That a draw is counted in `drawCount` is the model's choice (log 4). -/
def Obligations.SetStepAppliesTheStep : Prop :=
  ∀ (s : State) (k : StepIndex), s.Ready → ∃ d n,
    (s.dutyValid = true → d = s.duty ∧ n = s.drawCount) ∧
    (s.dutyValid = false → d.toNat ≤ 0x3F800000 ∧ n = s.drawCount + 1) ∧
    exec (.setStep (BitVec.ofNat 16 k.val)) s = .next { s with
      drawCount := n
      cmp := compareRow k (dutyToCompare d s.period) s.period
      en := enableRow k
      hist := s.hist ++ roleRecords k ++ [.setStep (BitVec.ofNat 16 k.val)]
      response := some ⟨true, 0⟩ }

/-- SET_STEP with a step of 6 or more takes the halt InvalidStep and writes no output
(44_commutation.md rule R195, 60_exceptions.md rules R261 to R263). -/
def Obligations.SetStepOutOfRangeHalts : Prop :=
  ∀ (s : State) (step : U16), s.Ready → 6 ≤ step.toNat →
    exec (.setStep step) s = .next { s with
      halted := true
      haltCause := .invalidStep
      haltInfo := step.setWidth 32
      run := false
      hist := s.hist ++ [.halt .invalidStep (step.setWidth 32)]
      response := some ⟨false, 1⟩ }

/-- ADVANCE_FWD and ADVANCE_BWD move STEP by one modulo 6 and write no output (45_clock_step.md rules R220
to R223). -/
def Obligations.StepCounterCommandsComplete : Prop :=
  decodeCommand (0x05#8 ++ 0#8 ++ 0#16 ++ 0#32) = .ok .advanceFwd ∧
  decodeCommand (0x06#8 ++ 0#8 ++ 0#16 ++ 0#32) = .ok .advanceBwd ∧
  ∀ s : State, s.Ready →
    (∃ k : StepIndex, k.val = (s.stepIndex.val + 1) % 6 ∧
      exec .advanceFwd s = .next { s with
        stepIndex := k
        hist := s.hist ++ [.advanceFwd]
        response := some ⟨true, 0⟩ }) ∧
    (∃ k : StepIndex, k.val = (s.stepIndex.val + 5) % 6 ∧
      exec .advanceBwd s = .next { s with
        stepIndex := k
        hist := s.hist ++ [.advanceBwd]
        response := some ⟨true, 0⟩ })

/-- SET_COMM_PERIOD stores max(us, 1) (45_clock_step.md rule R225). -/
def Obligations.SetCommPeriodCompletes : Prop :=
  ∀ us : U32,
    decodeCommand (0x07#8 ++ 0#8 ++ 0#16 ++ us) = .ok (.setCommPeriod us) ∧
    ∀ s : State, s.Ready →
      exec (.setCommPeriod us) s = .next { s with
        commPeriod := BitVec.ofNat 32 (max us.toNat 1)
        hist := s.hist ++ [.setCommPeriod us]
        response := some ⟨true, 0⟩ }

/-- PWM_SET_DUTY writes one compare, whether or not the PWM runs; a channel of 3 or more takes the halt
InvalidChannel (41_pwm_driver.md rule R134). -/
def Obligations.PwmSetDutyWritesOneCompare : Prop :=
  (∀ (sel : U8) (f : Float32Bits),
    decodeCommand (0x08#8 ++ sel ++ 0#16 ++ f) = .ok (.pwmSetDuty sel f)) ∧
  ∀ (s : State) (f : Float32Bits), s.Ready →
    (∀ c : Phase, exec (.pwmSetDuty (BitVec.ofNat 8 c.val) f) s = .next { s with
      cmp := s.cmp.set c (dutyToCompare f s.period)
      hist := s.hist ++ [.pwmSetDuty c f]
      response := some ⟨true, 0⟩ }) ∧
    (∀ sel : U8, 3 ≤ sel.toNat → exec (.pwmSetDuty sel f) s = .next { s with
      halted := true
      haltCause := .invalidChannel
      haltInfo := sel.setWidth 32
      run := false
      hist := s.hist ++ [.halt .invalidChannel (sel.setWidth 32)]
      response := some ⟨false, 2⟩ })

/-- PULL_PHASE writes one enable line; a phase of 3 or more takes the halt InvalidPhase
(42_phase_enable.md rule R150). -/
def Obligations.PullPhaseWritesOneLine : Prop :=
  (∀ (sel : U8) (up : Bool),
    decodeCommand (0x09#8 ++ sel ++ (0#15 ++ BitVec.ofBool up) ++ 0#32) = .ok (.pullPhase sel up)) ∧
  ∀ (s : State) (up : Bool), s.Ready →
    (∀ p : Phase, exec (.pullPhase (BitVec.ofNat 8 p.val) up) s = .next { s with
      en := s.en.set p up
      hist := s.hist ++ [.pullPhase p up]
      response := some ⟨true, 0⟩ }) ∧
    (∀ sel : U8, 3 ≤ sel.toNat → exec (.pullPhase sel up) s = .next { s with
      halted := true
      haltCause := .invalidPhase
      haltInfo := sel.setWidth 32
      run := false
      hist := s.hist ++ [.halt .invalidPhase (sel.setWidth 32)]
      response := some ⟨false, 3⟩ })

/-- READ_NEUTRAL answers the last estimate, HALTED or not, or one draw of a u16 while there is none
(46_interface_reads.md rule R241, 60_exceptions.md rule R264).
That a draw is counted in `drawCount` is the model's choice (log 4). -/
def Obligations.ReadNeutralCompletes : Prop :=
  decodeCommand (0x10#8 ++ 0#8 ++ 0#16 ++ 0#32) = .ok .readNeutral ∧
  ∀ s : State, s.tch = .idle → ∃ (v : U16) (n : Nat),
    (s.neutralValid = true → v = s.neutral ∧ n = s.drawCount) ∧
    (s.neutralValid = false → n = s.drawCount + 1) ∧
    exec .readNeutral s = .next { s with
      drawCount := n
      hist := s.hist ++ [.readNeutral]
      response := some ⟨true, v.setWidth 32⟩ }

/-- READ_ERRCNT answers the selected counter, HALTED or not; a selector of 3 or more takes the halt
IllegalCommand, or is refused while HALTED (46_interface_reads.md rule R242, 30_encoding.md rule R109). -/
def Obligations.ReadErrcntAnswersTheCounter : Prop :=
  (∀ sel : U8, decodeCommand (0x11#8 ++ sel ++ 0#16 ++ 0#32) = .ok (.readErrcnt sel)) ∧
  ∀ s : State, s.tch = .idle →
    (∀ c n, (c, n) ∈ errorTable s →
      exec (.readErrcnt (BitVec.ofNat 8 c.val)) s = .next { s with
        hist := s.hist ++ [.readErrCnt c]
        response := some ⟨true, n⟩ }) ∧
    (∀ sel : U8, 3 ≤ sel.toNat → s.halted = false →
      exec (.readErrcnt sel) s = .next { s with
        halted := true
        haltCause := .illegalCommand
        haltInfo := 0x11#8 ++ sel ++ 0#16
        run := false
        hist := s.hist ++ [.halt .illegalCommand (0x11#8 ++ sel ++ 0#16)]
        response := some ⟨false, 4⟩ }) ∧
    (∀ sel : U8, 3 ≤ sel.toNat → s.halted = true →
      exec (.readErrcnt sel) s = .next { s with
        hist := s.hist ++ [.refused (0x11#8 ++ sel ++ 0#48)]
        response := some ⟨false, 0⟩ })

/-- READ_REG answers each register of the map of 10_state.md rule R55, zero-extended, HALTED or not, and
changes nothing (46_interface_reads.md rule R243). -/
def Obligations.ReadRegAnswersTheRegister : Prop :=
  ∀ s : State, s.tch = .idle → ∀ sel r v, (sel, r, v, true) ∈ readTable s →
    exec (.readReg sel) s = .next { s with
      hist := s.hist ++ [.readReg r]
      response := some ⟨true, v⟩ }

/-- READ_REG with a reserved register number takes the halt IllegalCommand, or is refused while HALTED
(46_interface_reads.md rule R243, 30_encoding.md rule R109). -/
def Obligations.ReadRegReservedNumberIsIllegal : Prop :=
  ∀ (s : State) (sel : U8), s.tch = .idle → 0x11 ≤ sel.toNat →
    (s.halted = false → exec (.readReg sel) s = .next { s with
      halted := true
      haltCause := .illegalCommand
      haltInfo := 0x12#8 ++ sel ++ 0#16
      run := false
      hist := s.hist ++ [.halt .illegalCommand (0x12#8 ++ sel ++ 0#16)]
      response := some ⟨false, 4⟩ }) ∧
    (s.halted = true → exec (.readReg sel) s = .next { s with
      hist := s.hist ++ [.refused (0x12#8 ++ sel ++ 0#48)]
      response := some ⟨false, 0⟩ })

/-- Every read of unwritten state is one draw from its set, and the step completes: the register reads and
the Line compare of SET_STEP and TICK, which lies in [0, PERIOD] (10_state.md rules R35, R43, R44).
Two clauses are the model's choice and no rule's (log 4, draw by number): that one `d` serves READ_REG,
SET_STEP and TICK taken from the same state, where rule R35 says only that each read is fresh and two need
not agree; and the counting of the draws in the model's own field `drawCount`. -/
def Obligations.UnwrittenReadsAreDraws : Prop :=
  ∀ s : State, s.adcBits ≤ 16 →
    (s.dutyValid = false → ∃ d : Float32Bits, d.toNat ≤ 0x3F800000 ∧
      (dutyToCompare d s.period).toNat ≤ s.period.toNat ∧
      (s.tch = .idle → exec (.readReg 2) s = .next { s with
        drawCount := s.drawCount + 1
        hist := s.hist ++ [.readReg .duty]
        response := some ⟨true, d⟩ }) ∧
      (s.Ready → ∀ k : StepIndex, ∃ t, exec (.setStep (BitVec.ofNat 16 k.val)) s = .next t ∧
        t.drawCount = s.drawCount + 1 ∧ t.cmp.get (phaseWith (roleTable k) .line) =
          dutyToCompare d s.period) ∧
      (s.halted = false → s.ctIf = true → ∃ t, exec .tick s = .next t ∧
        t.drawCount = s.drawCount + 1 ∧ t.cmp.get (phaseWith (roleTable s.stepIndex) .line) =
          dutyToCompare d s.period)) ∧
    (s.neutralValid = false → s.tch = .idle → ∃ v : U16,
      exec (.readReg 8) s = .next { s with
        drawCount := s.drawCount + 1
        hist := s.hist ++ [.readReg .neutral]
        response := some ⟨true, v.setWidth 32⟩ }) ∧
    (∀ k : Phase, s.sampleValid.get k = false → s.tch = .idle → ∃ v : U16, v.toNat < 2 ^ s.adcBits ∧
      exec (.readReg (BitVec.ofNat 8 (9 + k.val))) s = .next { s with
        drawCount := s.drawCount + 1
        hist := s.hist ++ [.readReg (.sample k)]
        response := some ⟨true, v.setWidth 32⟩ })

/-- The layouts of STATUS and SENSE_POS, bit by bit (10_state.md rules R53 and R54). -/
def Obligations.StatusAndSensePosLayout : Prop :=
  ∀ s : State,
    (∀ n b, (n, b) ∈ statusTable s →
      (statusView s).getLsbD n = b) ∧
    (statusView s).extractLsb' 12 4 = s.haltCause.code ∧
    (statusView s).extractLsb' 19 13 = 0 ∧
    (sensePosView s).extractLsb' 0 2 = BitVec.ofNat 2 s.dmaIdx.val ∧
    (sensePosView s).extractLsb' 2 2 = BitVec.ofNat 2 s.adcSeq.val ∧
    (sensePosView s).getLsbD 4 = s.adcBusy ∧
    (sensePosView s).getLsbD 5 = s.sampleValid.e0 ∧
    (sensePosView s).getLsbD 6 = s.sampleValid.e1 ∧
    (sensePosView s).getLsbD 7 = s.sampleValid.e2 ∧
    (sensePosView s).extractLsb' 8 24 = 0

/-! ## The commutation clock -/

/-- CT_EXPIRE is always enabled, HALTED or not, RUN or not, and sets CT_IF (45_clock_step.md rule R226). -/
def Obligations.CtExpireCompletes : Prop :=
  ∀ s : State, exec .ctExpire s = .next { s with
    ctIf := true
    hist := s.hist ++ [.ctExpire] }

/-- TICK applies the step of STEP, advances STEP in the fixed direction and clears CT_IF, whatever RUN and
TCH are (45_clock_step.md rule R228, with rules R227 and R230). `d` is DUTY as it is read once: the written
duty, or one draw.
That a draw is counted in `drawCount` is the model's choice (log 4). -/
def Obligations.TickCompletes : Prop :=
  ∀ s : State, s.halted = false → s.ctIf = true → ∃ (d : Float32Bits) (n : Nat) (k : StepIndex),
    (s.dutyValid = true → d = s.duty ∧ n = s.drawCount) ∧
    (s.dutyValid = false → d.toNat ≤ 0x3F800000 ∧ n = s.drawCount + 1) ∧
    k.val = (s.stepIndex.val + if s.dir = .fwd then 1 else 5) % 6 ∧
    exec .tick s = .next { s with
      drawCount := n
      cmp := compareRow s.stepIndex (dutyToCompare d s.period) s.period
      en := enableRow s.stepIndex
      stepIndex := k
      ctIf := false
      hist := s.hist ++ roleRecords s.stepIndex ++ [.tick s.stepIndex] }

/-! ## The sense unit -/

/-- PWM_TRIGGER with RUN = 1 starts a scan at channel 0 when the ADC is idle, and is ignored during a scan
(43_sense.md rule R163). -/
def Obligations.PwmTriggerStartsAScan : Prop :=
  ∀ s : State, s.run = true →
    (s.adcBusy = false → exec .pwmTrigger s = .next { s with
      adcBusy := true
      adcSeq := 0
      hist := s.hist ++ [.pwmTrigger] }) ∧
    (s.adcBusy = true → exec .pwmTrigger s = .next { s with hist := s.hist ++ [.pwmTrigger] })

/-- ADC_CONV_BEAT writes the sample into the word at DMA_IDX, sets EOC_IF, sets TC_IF at word 2, and moves
the buffer position and the scan on, HALTED or not (43_sense.md rules R164 and R162). -/
def Obligations.ConvBeatCompletes : Prop :=
  ∀ (s : State) (v : U16), s.adcBusy = true → s.dmaActive = true → v.toNat < 2 ^ s.adcBits →
    exec (.adcConvBeat v) s = .next { s with
      sample := s.sample.set s.dmaIdx v
      sampleValid := s.sampleValid.set s.dmaIdx true
      eocIf := true
      tcIf := s.tcIf || decide (s.dmaIdx = 2)
      dmaIdx := s.dmaIdx + 1
      adcSeq := if s.adcSeq = 2 then 0 else s.adcSeq + 1
      adcBusy := decide (s.adcSeq ≠ 2)
      hist := s.hist ++ [.convBeat s.adcSeq s.dmaIdx v] }

/-- ADC_CONV_DROP sets OVR_IF and EOC_IF and moves the scan on; DMA_IDX moves only where OVR_REALIGN holds;
no buffer word is written (43_sense.md rules R165, R166 and R162). -/
def Obligations.ConvDropCompletes : Prop :=
  ∀ s : State, s.adcBusy = true →
    exec .adcConvDrop s = .next { s with
      ovrIf := true
      eocIf := true
      dmaIdx := if s.ovrRealign then s.dmaIdx + 1 else s.dmaIdx
      adcSeq := if s.adcSeq = 2 then 0 else s.adcSeq + 1
      adcBusy := decide (s.adcSeq ≠ 2)
      hist := s.hist ++ [.convDrop s.adcSeq] }

/-- DMA_TE and DMA_DME set their flag, and stop the stream exactly when `stop` is drawn
(43_sense.md rules R170 and R171). -/
def Obligations.DmaErrorsComplete : Prop :=
  ∀ (s : State) (stop : Bool), s.dmaActive = true →
    exec (.dmaTe stop) s = .next { s with
      teIf := true
      dmaActive := !stop
      hist := s.hist ++ [.dmaTe stop] } ∧
    exec (.dmaDme stop) s = .next { s with
      dmeIf := true
      dmaActive := !stop
      hist := s.hist ++ [.dmaDme stop] }

/-- TC_BEGIN acknowledges TC_IF first and starts at READ0 (43_sense.md rule R173). -/
def Obligations.TcBeginCompletes : Prop :=
  ∀ s : State, s.halted = false → s.tch = .idle → s.tcIf = true →
    exec .tcBegin s = .next { s with
      tcIf := false
      acc := 0
      tch := .read 0
      hist := s.hist ++ [.tcBegin] }

/-- TC_READ adds word k, or one draw while it is unwritten, to ACC, and at word 2 writes the estimate
(43_sense.md rule R174).
That a draw is counted in `drawCount` is the model's choice (log 4). -/
def Obligations.TcReadCompletes : Prop :=
  ∀ (s : State) (k : Phase), s.halted = false → s.tch = .read k → s.adcBits ≤ 16 →
    ∃ (v : U16) (n : Nat),
      (s.sampleValid.get k = true → v = s.sample.get k ∧ n = s.drawCount) ∧
      (s.sampleValid.get k = false → v.toNat < 2 ^ s.adcBits ∧ n = s.drawCount + 1) ∧
      (k ≠ 2 → exec .tcRead s = .next { s with
        drawCount := n
        acc := s.acc + v.setWidth 18
        tch := .read (k + 1)
        hist := s.hist ++ [.tcRead k v] }) ∧
      (k = 2 → exec .tcRead s = .next { s with
        drawCount := n
        neutral := BitVec.ofNat 16 ((s.acc + v.setWidth 18).toNat / 3)
        neutralValid := true
        acc := 0
        tch := .idle
        hist := s.hist ++ [.tcRead k v] })

/-- One handler run with no beat between its reads writes the truncated mean of the exact sum of the
three words, and writes nothing else but TC_IF and the history (43_sense.md rules R173 to R175). -/
def Obligations.NeutralIsTheTruncatedMean : Prop :=
  ∀ s : State, s.halted = false → s.tch = .idle → s.tcIf = true →
    s.sampleValid = ⟨true, true, true⟩ →
    ∃ n : U16, n.toNat = (s.sample.e0.toNat + s.sample.e1.toNat + s.sample.e2.toNat) / 3 ∧
      execAll [.tcBegin, .tcRead, .tcRead, .tcRead] s = .next { s with
        tcIf := false
        acc := 0
        neutral := n
        neutralValid := true
        hist := s.hist ++ [.tcBegin, .tcRead 0 s.sample.e0, .tcRead 1 s.sample.e1,
          .tcRead 2 s.sample.e2] }

/-- ERR_HANDLE counts each set flag once, modulo 2^32, and clears both (43_sense.md rule R176). -/
def Obligations.ErrHandleCompletes : Prop :=
  ∀ s : State, s.halted = false → s.teIf = true ∨ s.dmeIf = true →
    ∃ te dme : U32,
      te.toNat = (s.teCnt.toNat + s.teIf.toNat) % 2 ^ 32 ∧
      dme.toNat = (s.dmeCnt.toNat + s.dmeIf.toNat) % 2 ^ 32 ∧
      exec .errHandle s = .next { s with
        teCnt := te
        teIf := false
        dmeCnt := dme
        dmeIf := false
        hist := s.hist ++ [.errHandle] }

/-- ADC_STATUS_HANDLE counts a set OVR_IF once, modulo 2^32, and clears OVR_IF and EOC_IF
(43_sense.md rule R177). -/
def Obligations.AdcStatusHandleCompletes : Prop :=
  ∀ s : State, s.halted = false → s.ovrIf = true ∨ s.eocIf = true →
    ∃ ovr : U32, ovr.toNat = (s.ovrCnt.toNat + s.ovrIf.toNat) % 2 ^ 32 ∧
      exec .adcStatusHandle s = .next { s with
        ovrCnt := ovr
        ovrIf := false
        eocIf := false
        hist := s.hist ++ [.adcStatusHandle] }

/-! ## Reset -/

/-- RESET, from any state, gives every element its reset value and the three arguments their registers,
and keeps the two fixed parameters (70_reset_and_hazards.md rules R290 and R291, 10_state.md rule R59).
Nothing is said of the contents of DUTY, SAMPLE and NEUTRAL, which are unspecified. That no response
stands after RESET is the model's choice (log 10) and is not stated. -/
def Obligations.ResetCompletes : Prop :=
  ∀ (s : State) (p : U16) (us : U32) (d : Direction), us ≠ 0 →
    ∃ t, exec (.reset p us d) s = .next t ∧
      t.stepIndex = 0 ∧ t.dutyValid = false ∧ t.period = p ∧ t.cmp = ⟨0, 0, 0⟩ ∧
      t.en = ⟨false, false, false⟩ ∧ t.run = false ∧ t.dir = d ∧ t.commPeriod = us ∧
      t.ctIf = false ∧ t.sampleValid = ⟨false, false, false⟩ ∧ t.neutralValid = false ∧
      t.dmaIdx = 0 ∧ t.adcBusy = false ∧ t.adcSeq = 0 ∧ t.dmaActive = true ∧
      t.tcIf = false ∧ t.teIf = false ∧ t.dmeIf = false ∧ t.ovrIf = false ∧ t.eocIf = false ∧
      t.teCnt = 0 ∧ t.dmeCnt = 0 ∧ t.ovrCnt = 0 ∧ t.tch = .idle ∧ t.acc = 0 ∧
      t.halted = false ∧ t.haltCause = .none ∧ t.haltInfo = 0 ∧ t.hist = [] ∧
      t.adcBits = s.adcBits ∧ t.ovrRealign = s.ovrRealign

/-- The state right after the first RESET, whatever its arguments (70_reset_and_hazards.md rule R292):
nothing runs, every flag is clear, every counter is 0, CT_EXPIRE is enabled at once, no handler is, and
STATUS reads DMA_ACTIVE and DIR only (95_test_vectors.md L2.8). -/
def Obligations.StateAfterReset : Prop :=
  let r := State.reset
  r.halted = false ∧ r.run = false ∧ r.cmp = ⟨0, 0, 0⟩ ∧ r.en = ⟨false, false, false⟩ ∧
  r.stepIndex = 0 ∧ r.dutyValid = false ∧
  r.ctIf = false ∧ r.tcIf = false ∧ r.teIf = false ∧ r.dmeIf = false ∧ r.ovrIf = false ∧
  r.eocIf = false ∧ r.teCnt = 0 ∧ r.dmeCnt = 0 ∧ r.ovrCnt = 0 ∧
  enabled .ctExpire r = true ∧ (∀ i ∈ handlerSteps, enabled i r = false) ∧
  statusView r = (if r.dir = .fwd then 0x00000400 else 0x00000408) ∧ sensePosView r = 0

/-! ## Halt, priority, and the step -/

/-- While HALTED, every command that is no read is refused with ACK = 0 and VALUE = 0, and changes
nothing but the history (60_exceptions.md rule R264, 30_encoding.md rule R109). -/
def Obligations.HaltedRefusesWrites : Prop :=
  ∀ (s : State) (i : Instr), s.halted = true → s.tch = .idle → i.isCommand = true →
    i.isRead = false →
    exec i s = .next { s with
      hist := s.hist ++ [.refused (encode i)]
      response := some ⟨false, 0⟩ }

/-- A word with an unassigned opcode or a nonzero reserved field halts the block with IllegalCommand and
its bits 63:32, and changes nothing else; while HALTED it is refused (30_encoding.md rules R104, R105 and
R109). -/
def Obligations.IllegalWordHalts : Prop :=
  ∀ (s : State) (ts : List Turn) (w : Command) (ws : List Command) (e : DecodeError),
    s.turns = .host :: ts → s.hostWords = w :: ws → s.tch = .idle → decodeCommand w = .error e →
    (s.halted = false → step s = .next { s with
      turns := ts
      hostWords := ws
      halted := true
      haltCause := .illegalCommand
      haltInfo := w.extractLsb' 32 32
      run := false
      hist := s.hist ++ [.halt .illegalCommand (w.extractLsb' 32 32)]
      response := some ⟨false, 4⟩ }) ∧
    (s.halted = true → step s = .next { s with
      turns := ts
      hostWords := ws
      hist := s.hist ++ [.refused w]
      response := some ⟨false, 0⟩ })

/-- While HALTED no step of the software agents happens (60_exceptions.md rule R264), and no trigger comes
from a stopped master (43_sense.md rule R163). -/
def Obligations.HaltStopsSoftware : Prop :=
  ∀ (s : State) (i : Instr), s.halted = true → i.isHandler = true ∨ (i = .pwmTrigger ∧ s.run = false) →
    exec i s = .next s

/-- HALTED, its cause and its info last until RESET, and the outputs keep their last values
(60_exceptions.md rules R262, R264 and R265; 93_implementation_defined.md U14). -/
def Obligations.HaltIsLeftOnlyByReset : Prop :=
  ∀ (i : Instr) (s t : State), s.halted = true → ¬ i.IsReset → exec i s = .next t →
    t.halted = true ∧ t.haltCause = s.haltCause ∧ t.haltInfo = s.haltInfo ∧
    t.cmp = s.cmp ∧ t.en = s.en ∧ t.run = s.run ∧ t.period = s.period ∧ t.duty = s.duty ∧
    t.dutyValid = s.dutyValid ∧ t.stepIndex = s.stepIndex ∧
    (s.ctIf = true → t.ctIf = true) ∧ (s.tcIf = true → t.tcIf = true) ∧
    (s.teIf = true → t.teIf = true) ∧ (s.dmeIf = true → t.dmeIf = true) ∧
    (s.ovrIf = true → t.ovrIf = true) ∧ (s.eocIf = true → t.eocIf = true)

/-- While the transfer-complete handler is part-way, no HOST command happens: the word stays first in line
and the turn passes (60_exceptions.md rule R270 (a); that a held word waits in line is log 3). -/
def Obligations.HostIsHeldWhileTheHandlerRuns : Prop :=
  ∀ (s : State), s.tch ≠ .idle →
    (∀ i : Instr, i.isCommand = true → exec i s = .next s) ∧
    (∀ ts : List Turn, s.turns = .host :: ts → step s = .next { s with turns := ts })

/-- When an event does not happen, in the fields its own rule names (45_clock_step.md rule R228,
43_sense.md rules R163 to R165, R170, R171, R173, R174, R176, R177): the state is as it was. That the turn
then passes is the model's choice (log 2), and so is the clause on a sample of 2^ADC_BITS or more (log 8). -/
def Obligations.DisabledStepsChangeNothing : Prop :=
  ∀ s : State,
    (s.halted = true ∨ s.ctIf = false → exec .tick s = .next s) ∧
    (s.run = false → exec .pwmTrigger s = .next s) ∧
    (∀ v : U16, s.adcBusy = false ∨ s.dmaActive = false ∨ 2 ^ s.adcBits ≤ v.toNat →
      exec (.adcConvBeat v) s = .next s) ∧
    (s.adcBusy = false → exec .adcConvDrop s = .next s) ∧
    (∀ stop : Bool, s.dmaActive = false →
      exec (.dmaTe stop) s = .next s ∧ exec (.dmaDme stop) s = .next s) ∧
    (s.halted = true ∨ s.tch ≠ .idle ∨ s.tcIf = false → exec .tcBegin s = .next s) ∧
    (s.halted = true ∨ s.tch = .idle → exec .tcRead s = .next s) ∧
    (s.halted = true ∨ (s.teIf = false ∧ s.dmeIf = false) → exec .errHandle s = .next s) ∧
    (s.halted = true ∨ (s.ovrIf = false ∧ s.eocIf = false) →
      exec .adcStatusHandle s = .next s)

/-- HOST's turn executes the instruction that its next word decodes to, and an agent's turn executes that
agent's step; the step adds only that the turn and the word are used up (30_encoding.md rule R109,
20_memory.md rules R87 and R89). -/
def Obligations.StepRunsTheDecodedInstruction : Prop :=
  ∀ (s : State) (ts : List Turn),
    (∀ w ws i, s.turns = .host :: ts → s.hostWords = w :: ws → s.tch = .idle →
      decodeCommand w = .ok i → step s = exec i { s with turns := ts, hostWords := ws }) ∧
    (∀ i, s.turns = .agent i :: ts → step s = exec i { s with turns := ts })

/-- A row placed by `withFetchWord` is what the very next step runs. -/
def Obligations.FetchWordRunsTheRow : Prop :=
  ∀ (s : State) (w : Nat) (i : Instr),
    (s.tch = .idle → decodeTableWord 64 w = some i → step (s.withFetchWord 64 w) = exec i s) ∧
    (decodeTableWord 8 w = some i → step (s.withFetchWord 8 w) = exec i s)

/-- No step stops the machine: some step is always enabled and no run deadlocks (60_exceptions.md rule
R281). -/
def Obligations.StepAlwaysAnswers : Prop :=
  ∀ s : State, (∃ t, step s = .next t) ∧ enabled .ctExpire s = true

/-! ## Invariants that every step keeps -/

/-- The invariant of 10_state.md rule R56 is kept by every step from every state that has it: the ranges
of DUTY, COMM_PERIOD, the samples and ACC, an idle ADC at channel 0, no cause while not HALTED. -/
def Obligations.LegalStatesStayLegal : Prop :=
  ∀ s t : State, s.Legal → step s = .next t → t.Legal

/-- Since RESET there have been at most as many TICKs as CT_EXPIREs (45_clock_step.md rule R229). -/
def Obligations.TicksNeverExceedExpiries : Prop :=
  ∀ s t : State, s.TicksPaidFor → step s = .next t → t.TicksPaidFor

/-- The data contract: with OVR_REALIGN, or as long as nothing was dropped since RESET, every value written
to SAMPLE[i] is a sample of ADC channel i (43_sense.md rule R161). -/
def Obligations.BufferWordsKeepTheirChannel : Prop :=
  ∀ s t : State, s.WordsKeepChannel → step s = .next t → t.WordsKeepChannel

/-- Without OVR_REALIGN, after k drops channel c is written to word (c - k) mod 3 (43_sense.md rule
R166). -/
def Obligations.DropsShiftTheMapping : Prop :=
  ∀ s t : State, s.WordsShifted → step s = .next t → t.WordsShifted

/-- After any SET_STEP or TICK, and until the next PULL_PHASE or RESET, exactly one phase has EN = 1
(10_state.md rule R56). -/
def Obligations.OneLineUntilPullPhase : Prop :=
  ∀ s t : State, s.OneLine → step s = .next t → t.OneLine

/-- The invariants hold in the state after reset. -/
def Obligations.InvariantsHoldAtReset : Prop :=
  State.reset.Legal ∧ State.reset.TicksPaidFor ∧ State.reset.WordsKeepChannel ∧
  State.reset.WordsShifted ∧ State.reset.OneLine

/-! ## Rules of the whole machine -/

/-- The only writers of the outputs (44_commutation.md rule R201): CMP by SET_STEP, TICK, PWM_SET_DUTY and
RESET; EN by SET_STEP, TICK, PULL_PHASE and RESET; RUN by ENABLE, a halt and RESET. -/
def Obligations.OutputsHaveOnlyTheirWriters : Prop :=
  ∀ (i : Instr) (s t : State), exec i s = .next t →
    (t.cmp ≠ s.cmp →
      i.IsReset ∨ i = .tick ∨ (∃ k, i = .setStep k) ∨ (∃ c f, i = .pwmSetDuty c f)) ∧
    (t.en ≠ s.en →
      i.IsReset ∨ i = .tick ∨ (∃ k, i = .setStep k) ∨ (∃ p up, i = .pullPhase p up)) ∧
    (t.run ≠ s.run →
      i.IsReset ∨ (∃ on, i = .enable on) ∨ (t.run = false ∧ s.halted = false ∧ t.halted = true))

/-- Only a beat writes the sample buffer, and RESET discards it (20_memory.md rule R81, 10_state.md rule
R43); a stopped DMA stays stopped and its buffer stays as it is until RESET (43_sense.md rule R168). -/
def Obligations.OnlyTheDmaWritesTheBuffer : Prop :=
  ∀ (i : Instr) (s t : State), ¬ i.IsReset → exec i s = .next t →
    ((∀ v, i ≠ .adcConvBeat v) → t.sample = s.sample ∧ t.sampleValid = s.sampleValid) ∧
    (s.dmaActive = false →
      t.dmaActive = false ∧ t.sample = s.sample ∧ t.sampleValid = s.sampleValid)

/-- Sense state never reaches the commutation (43_sense.md rule R178): a sense event changes no commutation
state, and a commutation step taken from two states that differ only outside the commutation state, the
draws made and whether HOST is held gives the same commutation state.
That equal counts of draws mean equal draws is the model's choice (log 4). -/
def Obligations.SenseNeverReachesCommutation : Prop :=
  (∀ (i : Instr) (s t : State), i.isSense = true → exec i s = .next t → SameCommutation s t) ∧
  (∀ (i : Instr) (s s' t t' : State), i.isSense = false →
    SameCommutation s s' → s.drawCount = s'.drawCount → hostEnabled s = hostEnabled s' →
    exec i s = .next t → exec i s' = .next t' → SameCommutation t t')

/-- TICK and a sense handler, both enabled, may go in either order: the states differ only in the order of
their records (60_exceptions.md rule R271, an inference the spec marks as its own). Where one of the two
draws (a TICK that reads an unwritten DUTY, or a TC_READ of an unwritten word), that it draws the same value
in both orders is the model's choice and no rule's (log 4, draw by number): 10_state.md rules R35, R43 and R44
make each read fresh. So is what is shut out, a TICK that reads an unwritten DUTY beside a TC_READ of an
unwritten word: there both draw, and by log 4 the order decides which draw each gets. -/
def Obligations.TickCommutesWithTheHandlers : Prop :=
  ∀ (s : State) (h : Instr), h ∈ ([.tcBegin, .tcRead, .errHandle, .adcStatusHandle] : List Instr) →
    enabled .tick s = true → enabled h s = true →
    (h = .tcRead → s.dutyValid = true ∨ ∀ k, s.tch = .read k → s.sampleValid.get k = true) →
    ∃ t t', execAll [.tick, h] s = .next t ∧ execAll [h, .tick] s = .next t' ∧
      { t with hist := [] } = { t' with hist := [] } ∧ t.hist.Perm t'.hist ∧
      t.hist.length = s.hist.length + 5

/-- Non-overlap (44_commutation.md rule R196): do_set_step is the three applications Floating, Neutral,
Line; if at most one line was up before, at most one is up after each; and before the Line phase's line is
raised the other two are down, whatever they were. -/
def Obligations.RolesNeverOverlap : Prop :=
  ∀ (s : State) (k : StepIndex),
    let row := roleTable k
    let d := (readDuty s).1
    let s1 := applyRole (phaseWith row .floating) .floating d (readDuty s).2
    let s2 := applyRole (phaseWith row .neutral) .neutral d s1
    let s3 := applyRole (phaseWith row .line) .line d s2
    doSetStep k s = s3 ∧
    s3.hist = s.hist ++ [.applyRole (phaseWith row .floating) .floating,
      .applyRole (phaseWith row .neutral) .neutral, .applyRole (phaseWith row .line) .line] ∧
    phaseWith row .floating ≠ phaseWith row .neutral ∧
    phaseWith row .neutral ≠ phaseWith row .line ∧
    phaseWith row .line ≠ phaseWith row .floating ∧
    (∀ p : Phase, p ≠ phaseWith row .line → s2.en.get p = false) ∧
    (enableCount s.en ≤ 1 →
      enableCount s1.en ≤ 1 ∧ enableCount s2.en ≤ 1 ∧ enableCount s3.en = 1)

/-! ## Runs -/

/-- In a fair run a pending expiry is serviced unless the block halts: CT_IF does not stay 1 for ever
(60_exceptions.md rule R283 (b)). -/
def Obligations.FairRunsServiceTheExpiry : Prop :=
  ∀ r : Run, r.Steps → r.Fair → ∀ n, (r.states n).ctIf = true →
    ∃ m, n ≤ m ∧ ((r.states m).ctIf = false ∨ (r.states m).halted = true)
end

