-- ==== Sys2Proof/Laws/Decode.lean ====
section
/-! SUPPORT. A word's fields are what it was put together from (30_encoding.md rules R100 and R101; for
event words, log 11). -/

namespace Sys2Proof

theorem commandWord_toNat (op sel : U8) (imm : U16) (data : U32) :
    (commandWord op sel imm data).toNat =
      op.toNat * 2 ^ 56 + sel.toNat * 2 ^ 48 + imm.toNat * 2 ^ 32 + data.toNat := by
  have h2 := sel.isLt
  have h3 := imm.isLt
  have h4 := data.isLt
  have h : (commandWord op sel imm data).toNat =
      (op ++ sel ++ imm ++ data : BitVec (8 + 8 + 16 + 32)).toNat := rfl
  rw [h, BitVec.toNat_append, BitVec.toNat_append, BitVec.toNat_append,
    ← Nat.shiftLeft_add_eq_or_of_lt h4, ← Nat.shiftLeft_add_eq_or_of_lt h3,
    ← Nat.shiftLeft_add_eq_or_of_lt h2]
  simp only [Nat.shiftLeft_eq]
  omega

/-- A slice of a command word, as a number. -/
theorem commandWord_slice (op sel : U8) (imm : U16) (data : U32) (start len : Nat) :
    ((commandWord op sel imm data).extractLsb' start len).toNat =
      (op.toNat * 2 ^ 56 + sel.toNat * 2 ^ 48 + imm.toNat * 2 ^ 32 + data.toNat) / 2 ^ start
        % 2 ^ len := by
  rw [BitVec.extractLsb'_toNat, commandWord_toNat, Nat.shiftRight_eq_div_pow]

@[simp] theorem opField_commandWord (op sel : U8) (imm : U16) (data : U32) :
    opField (commandWord op sel imm data) = op := by
  have h1 := op.isLt
  have h2 := sel.isLt
  have h3 := imm.isLt
  have h4 := data.isLt
  apply BitVec.eq_of_toNat_eq
  rw [opField, commandWord_slice]
  omega

@[simp] theorem selField_commandWord (op sel : U8) (imm : U16) (data : U32) :
    selField (commandWord op sel imm data) = sel := by
  have h2 := sel.isLt
  have h3 := imm.isLt
  have h4 := data.isLt
  apply BitVec.eq_of_toNat_eq
  rw [selField, commandWord_slice]
  omega

@[simp] theorem immField_commandWord (op sel : U8) (imm : U16) (data : U32) :
    immField (commandWord op sel imm data) = imm := by
  have h3 := imm.isLt
  have h4 := data.isLt
  apply BitVec.eq_of_toNat_eq
  rw [immField, commandWord_slice]
  omega

@[simp] theorem dataField_commandWord (op sel : U8) (imm : U16) (data : U32) :
    dataField (commandWord op sel imm data) = data := by
  have h4 := data.isLt
  apply BitVec.eq_of_toNat_eq
  rw [dataField, commandWord_slice]
  omega

/-- A word is put together from its fields. -/
theorem commandWord_fields (w : Command) :
    commandWord (opField w) (selField w) (immField w) (dataField w) = w := by
  apply BitVec.eq_of_toNat_eq
  have h := w.isLt
  rw [commandWord_toNat]
  simp only [opField, selField, immField, dataField, BitVec.extractLsb'_toNat,
    Nat.shiftRight_eq_div_pow]
  omega

@[simp] theorem immBool_commandWord (op sel : U8) (b : Bool) (data : U32) :
    immBool (commandWord op sel (immOfBool b) data) = b := by
  rw [immBool, immField_commandWord]
  cases b <;> rfl

@[simp] theorem immAboveBool_commandWord (op sel : U8) (b : Bool) (data : U32) :
    immAboveBool (commandWord op sel (immOfBool b) data) = 0 := by
  rw [immAboveBool, immField_commandWord]
  cases b <;> rfl

theorem eventWord_toNat (code : U8) (operand : BitVec 56) :
    (eventWord code operand).toNat = operand.toNat * 2 ^ 8 + code.toNat := by
  have h1 := code.isLt
  have h : (eventWord code operand).toNat = (operand ++ code : BitVec (56 + 8)).toNat := rfl
  rw [h, BitVec.toNat_append, ← Nat.shiftLeft_add_eq_or_of_lt h1]
  simp only [Nat.shiftLeft_eq]

@[simp] theorem eventCode_eventWord (code : U8) (operand : BitVec 56) :
    eventCode (eventWord code operand) = code := by
  have h1 := code.isLt
  apply BitVec.eq_of_toNat_eq
  rw [eventCode, BitVec.extractLsb'_toNat, eventWord_toNat, Nat.shiftRight_eq_div_pow]
  omega

@[simp] theorem eventOperand_eventWord (code : U8) (operand : BitVec 56) :
    eventOperand (eventWord code operand) = operand := by
  have h1 := code.isLt
  have h2 := operand.isLt
  apply BitVec.eq_of_toNat_eq
  rw [eventOperand, BitVec.extractLsb'_toNat, eventWord_toNat, Nat.shiftRight_eq_div_pow]
  omega

end Sys2Proof
end

