-- ==== Sys2Proof/Laws/State.lean ====
section
/-! SUPPORT. One lemma for each field of State under each named update, true by rfl, so that no later proof
unfolds an update. -/

namespace Sys2Proof.Machine

@[simp] theorem record_stepIndex (e : HistRecord) (s : State) : (record e s).stepIndex = s.stepIndex := rfl
@[simp] theorem record_duty (e : HistRecord) (s : State) : (record e s).duty = s.duty := rfl
@[simp] theorem record_dutyValid (e : HistRecord) (s : State) : (record e s).dutyValid = s.dutyValid := rfl
@[simp] theorem record_period (e : HistRecord) (s : State) : (record e s).period = s.period := rfl
@[simp] theorem record_cmp (e : HistRecord) (s : State) : (record e s).cmp = s.cmp := rfl
@[simp] theorem record_en (e : HistRecord) (s : State) : (record e s).en = s.en := rfl
@[simp] theorem record_run (e : HistRecord) (s : State) : (record e s).run = s.run := rfl
@[simp] theorem record_dir (e : HistRecord) (s : State) : (record e s).dir = s.dir := rfl
@[simp] theorem record_commPeriod (e : HistRecord) (s : State) : (record e s).commPeriod = s.commPeriod := rfl
@[simp] theorem record_ctIf (e : HistRecord) (s : State) : (record e s).ctIf = s.ctIf := rfl
@[simp] theorem record_sample (e : HistRecord) (s : State) : (record e s).sample = s.sample := rfl
@[simp] theorem record_sampleValid (e : HistRecord) (s : State) : (record e s).sampleValid = s.sampleValid := rfl
@[simp] theorem record_neutral (e : HistRecord) (s : State) : (record e s).neutral = s.neutral := rfl
@[simp] theorem record_neutralValid (e : HistRecord) (s : State) : (record e s).neutralValid = s.neutralValid := rfl
@[simp] theorem record_dmaIdx (e : HistRecord) (s : State) : (record e s).dmaIdx = s.dmaIdx := rfl
@[simp] theorem record_adcBusy (e : HistRecord) (s : State) : (record e s).adcBusy = s.adcBusy := rfl
@[simp] theorem record_adcSeq (e : HistRecord) (s : State) : (record e s).adcSeq = s.adcSeq := rfl
@[simp] theorem record_dmaActive (e : HistRecord) (s : State) : (record e s).dmaActive = s.dmaActive := rfl
@[simp] theorem record_tcIf (e : HistRecord) (s : State) : (record e s).tcIf = s.tcIf := rfl
@[simp] theorem record_teIf (e : HistRecord) (s : State) : (record e s).teIf = s.teIf := rfl
@[simp] theorem record_dmeIf (e : HistRecord) (s : State) : (record e s).dmeIf = s.dmeIf := rfl
@[simp] theorem record_ovrIf (e : HistRecord) (s : State) : (record e s).ovrIf = s.ovrIf := rfl
@[simp] theorem record_eocIf (e : HistRecord) (s : State) : (record e s).eocIf = s.eocIf := rfl
@[simp] theorem record_teCnt (e : HistRecord) (s : State) : (record e s).teCnt = s.teCnt := rfl
@[simp] theorem record_dmeCnt (e : HistRecord) (s : State) : (record e s).dmeCnt = s.dmeCnt := rfl
@[simp] theorem record_ovrCnt (e : HistRecord) (s : State) : (record e s).ovrCnt = s.ovrCnt := rfl
@[simp] theorem record_tch (e : HistRecord) (s : State) : (record e s).tch = s.tch := rfl
@[simp] theorem record_acc (e : HistRecord) (s : State) : (record e s).acc = s.acc := rfl
@[simp] theorem record_halted (e : HistRecord) (s : State) : (record e s).halted = s.halted := rfl
@[simp] theorem record_haltCause (e : HistRecord) (s : State) : (record e s).haltCause = s.haltCause := rfl
@[simp] theorem record_haltInfo (e : HistRecord) (s : State) : (record e s).haltInfo = s.haltInfo := rfl
@[simp] theorem record_hist (e : HistRecord) (s : State) : (record e s).hist = s.hist ++ [e] := rfl
@[simp] theorem record_response (e : HistRecord) (s : State) : (record e s).response = s.response := rfl
@[simp] theorem record_adcBits (e : HistRecord) (s : State) : (record e s).adcBits = s.adcBits := rfl
@[simp] theorem record_ovrRealign (e : HistRecord) (s : State) : (record e s).ovrRealign = s.ovrRealign := rfl
@[simp] theorem record_turns (e : HistRecord) (s : State) : (record e s).turns = s.turns := rfl
@[simp] theorem record_hostWords (e : HistRecord) (s : State) : (record e s).hostWords = s.hostWords := rfl
@[simp] theorem record_freeInputs (e : HistRecord) (s : State) : (record e s).freeInputs = s.freeInputs := rfl
@[simp] theorem record_drawCount (e : HistRecord) (s : State) : (record e s).drawCount = s.drawCount := rfl

@[simp] theorem respond_stepIndex (v : U32) (s : State) : (respond v s).stepIndex = s.stepIndex := rfl
@[simp] theorem respond_duty (v : U32) (s : State) : (respond v s).duty = s.duty := rfl
@[simp] theorem respond_dutyValid (v : U32) (s : State) : (respond v s).dutyValid = s.dutyValid := rfl
@[simp] theorem respond_period (v : U32) (s : State) : (respond v s).period = s.period := rfl
@[simp] theorem respond_cmp (v : U32) (s : State) : (respond v s).cmp = s.cmp := rfl
@[simp] theorem respond_en (v : U32) (s : State) : (respond v s).en = s.en := rfl
@[simp] theorem respond_run (v : U32) (s : State) : (respond v s).run = s.run := rfl
@[simp] theorem respond_dir (v : U32) (s : State) : (respond v s).dir = s.dir := rfl
@[simp] theorem respond_commPeriod (v : U32) (s : State) : (respond v s).commPeriod = s.commPeriod := rfl
@[simp] theorem respond_ctIf (v : U32) (s : State) : (respond v s).ctIf = s.ctIf := rfl
@[simp] theorem respond_sample (v : U32) (s : State) : (respond v s).sample = s.sample := rfl
@[simp] theorem respond_sampleValid (v : U32) (s : State) : (respond v s).sampleValid = s.sampleValid := rfl
@[simp] theorem respond_neutral (v : U32) (s : State) : (respond v s).neutral = s.neutral := rfl
@[simp] theorem respond_neutralValid (v : U32) (s : State) : (respond v s).neutralValid = s.neutralValid := rfl
@[simp] theorem respond_dmaIdx (v : U32) (s : State) : (respond v s).dmaIdx = s.dmaIdx := rfl
@[simp] theorem respond_adcBusy (v : U32) (s : State) : (respond v s).adcBusy = s.adcBusy := rfl
@[simp] theorem respond_adcSeq (v : U32) (s : State) : (respond v s).adcSeq = s.adcSeq := rfl
@[simp] theorem respond_dmaActive (v : U32) (s : State) : (respond v s).dmaActive = s.dmaActive := rfl
@[simp] theorem respond_tcIf (v : U32) (s : State) : (respond v s).tcIf = s.tcIf := rfl
@[simp] theorem respond_teIf (v : U32) (s : State) : (respond v s).teIf = s.teIf := rfl
@[simp] theorem respond_dmeIf (v : U32) (s : State) : (respond v s).dmeIf = s.dmeIf := rfl
@[simp] theorem respond_ovrIf (v : U32) (s : State) : (respond v s).ovrIf = s.ovrIf := rfl
@[simp] theorem respond_eocIf (v : U32) (s : State) : (respond v s).eocIf = s.eocIf := rfl
@[simp] theorem respond_teCnt (v : U32) (s : State) : (respond v s).teCnt = s.teCnt := rfl
@[simp] theorem respond_dmeCnt (v : U32) (s : State) : (respond v s).dmeCnt = s.dmeCnt := rfl
@[simp] theorem respond_ovrCnt (v : U32) (s : State) : (respond v s).ovrCnt = s.ovrCnt := rfl
@[simp] theorem respond_tch (v : U32) (s : State) : (respond v s).tch = s.tch := rfl
@[simp] theorem respond_acc (v : U32) (s : State) : (respond v s).acc = s.acc := rfl
@[simp] theorem respond_halted (v : U32) (s : State) : (respond v s).halted = s.halted := rfl
@[simp] theorem respond_haltCause (v : U32) (s : State) : (respond v s).haltCause = s.haltCause := rfl
@[simp] theorem respond_haltInfo (v : U32) (s : State) : (respond v s).haltInfo = s.haltInfo := rfl
@[simp] theorem respond_hist (v : U32) (s : State) : (respond v s).hist = s.hist := rfl
@[simp] theorem respond_response (v : U32) (s : State) : (respond v s).response = some ⟨true, v⟩ := rfl
@[simp] theorem respond_adcBits (v : U32) (s : State) : (respond v s).adcBits = s.adcBits := rfl
@[simp] theorem respond_ovrRealign (v : U32) (s : State) : (respond v s).ovrRealign = s.ovrRealign := rfl
@[simp] theorem respond_turns (v : U32) (s : State) : (respond v s).turns = s.turns := rfl
@[simp] theorem respond_hostWords (v : U32) (s : State) : (respond v s).hostWords = s.hostWords := rfl
@[simp] theorem respond_freeInputs (v : U32) (s : State) : (respond v s).freeInputs = s.freeInputs := rfl
@[simp] theorem respond_drawCount (v : U32) (s : State) : (respond v s).drawCount = s.drawCount := rfl

@[simp] theorem respondNack_stepIndex (v : U32) (s : State) : (respondNack v s).stepIndex = s.stepIndex := rfl
@[simp] theorem respondNack_duty (v : U32) (s : State) : (respondNack v s).duty = s.duty := rfl
@[simp] theorem respondNack_dutyValid (v : U32) (s : State) : (respondNack v s).dutyValid = s.dutyValid := rfl
@[simp] theorem respondNack_period (v : U32) (s : State) : (respondNack v s).period = s.period := rfl
@[simp] theorem respondNack_cmp (v : U32) (s : State) : (respondNack v s).cmp = s.cmp := rfl
@[simp] theorem respondNack_en (v : U32) (s : State) : (respondNack v s).en = s.en := rfl
@[simp] theorem respondNack_run (v : U32) (s : State) : (respondNack v s).run = s.run := rfl
@[simp] theorem respondNack_dir (v : U32) (s : State) : (respondNack v s).dir = s.dir := rfl
@[simp] theorem respondNack_commPeriod (v : U32) (s : State) : (respondNack v s).commPeriod = s.commPeriod := rfl
@[simp] theorem respondNack_ctIf (v : U32) (s : State) : (respondNack v s).ctIf = s.ctIf := rfl
@[simp] theorem respondNack_sample (v : U32) (s : State) : (respondNack v s).sample = s.sample := rfl
@[simp] theorem respondNack_sampleValid (v : U32) (s : State) : (respondNack v s).sampleValid = s.sampleValid := rfl
@[simp] theorem respondNack_neutral (v : U32) (s : State) : (respondNack v s).neutral = s.neutral := rfl
@[simp] theorem respondNack_neutralValid (v : U32) (s : State) : (respondNack v s).neutralValid = s.neutralValid := rfl
@[simp] theorem respondNack_dmaIdx (v : U32) (s : State) : (respondNack v s).dmaIdx = s.dmaIdx := rfl
@[simp] theorem respondNack_adcBusy (v : U32) (s : State) : (respondNack v s).adcBusy = s.adcBusy := rfl
@[simp] theorem respondNack_adcSeq (v : U32) (s : State) : (respondNack v s).adcSeq = s.adcSeq := rfl
@[simp] theorem respondNack_dmaActive (v : U32) (s : State) : (respondNack v s).dmaActive = s.dmaActive := rfl
@[simp] theorem respondNack_tcIf (v : U32) (s : State) : (respondNack v s).tcIf = s.tcIf := rfl
@[simp] theorem respondNack_teIf (v : U32) (s : State) : (respondNack v s).teIf = s.teIf := rfl
@[simp] theorem respondNack_dmeIf (v : U32) (s : State) : (respondNack v s).dmeIf = s.dmeIf := rfl
@[simp] theorem respondNack_ovrIf (v : U32) (s : State) : (respondNack v s).ovrIf = s.ovrIf := rfl
@[simp] theorem respondNack_eocIf (v : U32) (s : State) : (respondNack v s).eocIf = s.eocIf := rfl
@[simp] theorem respondNack_teCnt (v : U32) (s : State) : (respondNack v s).teCnt = s.teCnt := rfl
@[simp] theorem respondNack_dmeCnt (v : U32) (s : State) : (respondNack v s).dmeCnt = s.dmeCnt := rfl
@[simp] theorem respondNack_ovrCnt (v : U32) (s : State) : (respondNack v s).ovrCnt = s.ovrCnt := rfl
@[simp] theorem respondNack_tch (v : U32) (s : State) : (respondNack v s).tch = s.tch := rfl
@[simp] theorem respondNack_acc (v : U32) (s : State) : (respondNack v s).acc = s.acc := rfl
@[simp] theorem respondNack_halted (v : U32) (s : State) : (respondNack v s).halted = s.halted := rfl
@[simp] theorem respondNack_haltCause (v : U32) (s : State) : (respondNack v s).haltCause = s.haltCause := rfl
@[simp] theorem respondNack_haltInfo (v : U32) (s : State) : (respondNack v s).haltInfo = s.haltInfo := rfl
@[simp] theorem respondNack_hist (v : U32) (s : State) : (respondNack v s).hist = s.hist := rfl
@[simp] theorem respondNack_response (v : U32) (s : State) : (respondNack v s).response = some ⟨false, v⟩ := rfl
@[simp] theorem respondNack_adcBits (v : U32) (s : State) : (respondNack v s).adcBits = s.adcBits := rfl
@[simp] theorem respondNack_ovrRealign (v : U32) (s : State) : (respondNack v s).ovrRealign = s.ovrRealign := rfl
@[simp] theorem respondNack_turns (v : U32) (s : State) : (respondNack v s).turns = s.turns := rfl
@[simp] theorem respondNack_hostWords (v : U32) (s : State) : (respondNack v s).hostWords = s.hostWords := rfl
@[simp] theorem respondNack_freeInputs (v : U32) (s : State) : (respondNack v s).freeInputs = s.freeInputs := rfl
@[simp] theorem respondNack_drawCount (v : U32) (s : State) : (respondNack v s).drawCount = s.drawCount := rfl

@[simp] theorem countDraw_stepIndex (s : State) : (countDraw s).stepIndex = s.stepIndex := rfl
@[simp] theorem countDraw_duty (s : State) : (countDraw s).duty = s.duty := rfl
@[simp] theorem countDraw_dutyValid (s : State) : (countDraw s).dutyValid = s.dutyValid := rfl
@[simp] theorem countDraw_period (s : State) : (countDraw s).period = s.period := rfl
@[simp] theorem countDraw_cmp (s : State) : (countDraw s).cmp = s.cmp := rfl
@[simp] theorem countDraw_en (s : State) : (countDraw s).en = s.en := rfl
@[simp] theorem countDraw_run (s : State) : (countDraw s).run = s.run := rfl
@[simp] theorem countDraw_dir (s : State) : (countDraw s).dir = s.dir := rfl
@[simp] theorem countDraw_commPeriod (s : State) : (countDraw s).commPeriod = s.commPeriod := rfl
@[simp] theorem countDraw_ctIf (s : State) : (countDraw s).ctIf = s.ctIf := rfl
@[simp] theorem countDraw_sample (s : State) : (countDraw s).sample = s.sample := rfl
@[simp] theorem countDraw_sampleValid (s : State) : (countDraw s).sampleValid = s.sampleValid := rfl
@[simp] theorem countDraw_neutral (s : State) : (countDraw s).neutral = s.neutral := rfl
@[simp] theorem countDraw_neutralValid (s : State) : (countDraw s).neutralValid = s.neutralValid := rfl
@[simp] theorem countDraw_dmaIdx (s : State) : (countDraw s).dmaIdx = s.dmaIdx := rfl
@[simp] theorem countDraw_adcBusy (s : State) : (countDraw s).adcBusy = s.adcBusy := rfl
@[simp] theorem countDraw_adcSeq (s : State) : (countDraw s).adcSeq = s.adcSeq := rfl
@[simp] theorem countDraw_dmaActive (s : State) : (countDraw s).dmaActive = s.dmaActive := rfl
@[simp] theorem countDraw_tcIf (s : State) : (countDraw s).tcIf = s.tcIf := rfl
@[simp] theorem countDraw_teIf (s : State) : (countDraw s).teIf = s.teIf := rfl
@[simp] theorem countDraw_dmeIf (s : State) : (countDraw s).dmeIf = s.dmeIf := rfl
@[simp] theorem countDraw_ovrIf (s : State) : (countDraw s).ovrIf = s.ovrIf := rfl
@[simp] theorem countDraw_eocIf (s : State) : (countDraw s).eocIf = s.eocIf := rfl
@[simp] theorem countDraw_teCnt (s : State) : (countDraw s).teCnt = s.teCnt := rfl
@[simp] theorem countDraw_dmeCnt (s : State) : (countDraw s).dmeCnt = s.dmeCnt := rfl
@[simp] theorem countDraw_ovrCnt (s : State) : (countDraw s).ovrCnt = s.ovrCnt := rfl
@[simp] theorem countDraw_tch (s : State) : (countDraw s).tch = s.tch := rfl
@[simp] theorem countDraw_acc (s : State) : (countDraw s).acc = s.acc := rfl
@[simp] theorem countDraw_halted (s : State) : (countDraw s).halted = s.halted := rfl
@[simp] theorem countDraw_haltCause (s : State) : (countDraw s).haltCause = s.haltCause := rfl
@[simp] theorem countDraw_haltInfo (s : State) : (countDraw s).haltInfo = s.haltInfo := rfl
@[simp] theorem countDraw_hist (s : State) : (countDraw s).hist = s.hist := rfl
@[simp] theorem countDraw_response (s : State) : (countDraw s).response = s.response := rfl
@[simp] theorem countDraw_adcBits (s : State) : (countDraw s).adcBits = s.adcBits := rfl
@[simp] theorem countDraw_ovrRealign (s : State) : (countDraw s).ovrRealign = s.ovrRealign := rfl
@[simp] theorem countDraw_turns (s : State) : (countDraw s).turns = s.turns := rfl
@[simp] theorem countDraw_hostWords (s : State) : (countDraw s).hostWords = s.hostWords := rfl
@[simp] theorem countDraw_freeInputs (s : State) : (countDraw s).freeInputs = s.freeInputs := rfl
@[simp] theorem countDraw_drawCount (s : State) : (countDraw s).drawCount = s.drawCount + 1 := rfl

@[simp] theorem placeCommand_stepIndex (w : Command) (s : State) : (placeCommand w s).stepIndex = s.stepIndex := rfl
@[simp] theorem placeCommand_duty (w : Command) (s : State) : (placeCommand w s).duty = s.duty := rfl
@[simp] theorem placeCommand_dutyValid (w : Command) (s : State) : (placeCommand w s).dutyValid = s.dutyValid := rfl
@[simp] theorem placeCommand_period (w : Command) (s : State) : (placeCommand w s).period = s.period := rfl
@[simp] theorem placeCommand_cmp (w : Command) (s : State) : (placeCommand w s).cmp = s.cmp := rfl
@[simp] theorem placeCommand_en (w : Command) (s : State) : (placeCommand w s).en = s.en := rfl
@[simp] theorem placeCommand_run (w : Command) (s : State) : (placeCommand w s).run = s.run := rfl
@[simp] theorem placeCommand_dir (w : Command) (s : State) : (placeCommand w s).dir = s.dir := rfl
@[simp] theorem placeCommand_commPeriod (w : Command) (s : State) : (placeCommand w s).commPeriod = s.commPeriod := rfl
@[simp] theorem placeCommand_ctIf (w : Command) (s : State) : (placeCommand w s).ctIf = s.ctIf := rfl
@[simp] theorem placeCommand_sample (w : Command) (s : State) : (placeCommand w s).sample = s.sample := rfl
@[simp] theorem placeCommand_sampleValid (w : Command) (s : State) : (placeCommand w s).sampleValid = s.sampleValid := rfl
@[simp] theorem placeCommand_neutral (w : Command) (s : State) : (placeCommand w s).neutral = s.neutral := rfl
@[simp] theorem placeCommand_neutralValid (w : Command) (s : State) : (placeCommand w s).neutralValid = s.neutralValid := rfl
@[simp] theorem placeCommand_dmaIdx (w : Command) (s : State) : (placeCommand w s).dmaIdx = s.dmaIdx := rfl
@[simp] theorem placeCommand_adcBusy (w : Command) (s : State) : (placeCommand w s).adcBusy = s.adcBusy := rfl
@[simp] theorem placeCommand_adcSeq (w : Command) (s : State) : (placeCommand w s).adcSeq = s.adcSeq := rfl
@[simp] theorem placeCommand_dmaActive (w : Command) (s : State) : (placeCommand w s).dmaActive = s.dmaActive := rfl
@[simp] theorem placeCommand_tcIf (w : Command) (s : State) : (placeCommand w s).tcIf = s.tcIf := rfl
@[simp] theorem placeCommand_teIf (w : Command) (s : State) : (placeCommand w s).teIf = s.teIf := rfl
@[simp] theorem placeCommand_dmeIf (w : Command) (s : State) : (placeCommand w s).dmeIf = s.dmeIf := rfl
@[simp] theorem placeCommand_ovrIf (w : Command) (s : State) : (placeCommand w s).ovrIf = s.ovrIf := rfl
@[simp] theorem placeCommand_eocIf (w : Command) (s : State) : (placeCommand w s).eocIf = s.eocIf := rfl
@[simp] theorem placeCommand_teCnt (w : Command) (s : State) : (placeCommand w s).teCnt = s.teCnt := rfl
@[simp] theorem placeCommand_dmeCnt (w : Command) (s : State) : (placeCommand w s).dmeCnt = s.dmeCnt := rfl
@[simp] theorem placeCommand_ovrCnt (w : Command) (s : State) : (placeCommand w s).ovrCnt = s.ovrCnt := rfl
@[simp] theorem placeCommand_tch (w : Command) (s : State) : (placeCommand w s).tch = s.tch := rfl
@[simp] theorem placeCommand_acc (w : Command) (s : State) : (placeCommand w s).acc = s.acc := rfl
@[simp] theorem placeCommand_halted (w : Command) (s : State) : (placeCommand w s).halted = s.halted := rfl
@[simp] theorem placeCommand_haltCause (w : Command) (s : State) : (placeCommand w s).haltCause = s.haltCause := rfl
@[simp] theorem placeCommand_haltInfo (w : Command) (s : State) : (placeCommand w s).haltInfo = s.haltInfo := rfl
@[simp] theorem placeCommand_hist (w : Command) (s : State) : (placeCommand w s).hist = s.hist := rfl
@[simp] theorem placeCommand_response (w : Command) (s : State) : (placeCommand w s).response = s.response := rfl
@[simp] theorem placeCommand_adcBits (w : Command) (s : State) : (placeCommand w s).adcBits = s.adcBits := rfl
@[simp] theorem placeCommand_ovrRealign (w : Command) (s : State) : (placeCommand w s).ovrRealign = s.ovrRealign := rfl
@[simp] theorem placeCommand_turns (w : Command) (s : State) : (placeCommand w s).turns = .host :: s.turns := rfl
@[simp] theorem placeCommand_hostWords (w : Command) (s : State) : (placeCommand w s).hostWords = w :: s.hostWords := rfl
@[simp] theorem placeCommand_freeInputs (w : Command) (s : State) : (placeCommand w s).freeInputs = s.freeInputs := rfl
@[simp] theorem placeCommand_drawCount (w : Command) (s : State) : (placeCommand w s).drawCount = s.drawCount := rfl

@[simp] theorem refuseWord_stepIndex (w : Command) (s : State) : (refuseWord w s).stepIndex = s.stepIndex := rfl
@[simp] theorem refuseWord_duty (w : Command) (s : State) : (refuseWord w s).duty = s.duty := rfl
@[simp] theorem refuseWord_dutyValid (w : Command) (s : State) : (refuseWord w s).dutyValid = s.dutyValid := rfl
@[simp] theorem refuseWord_period (w : Command) (s : State) : (refuseWord w s).period = s.period := rfl
@[simp] theorem refuseWord_cmp (w : Command) (s : State) : (refuseWord w s).cmp = s.cmp := rfl
@[simp] theorem refuseWord_en (w : Command) (s : State) : (refuseWord w s).en = s.en := rfl
@[simp] theorem refuseWord_run (w : Command) (s : State) : (refuseWord w s).run = s.run := rfl
@[simp] theorem refuseWord_dir (w : Command) (s : State) : (refuseWord w s).dir = s.dir := rfl
@[simp] theorem refuseWord_commPeriod (w : Command) (s : State) : (refuseWord w s).commPeriod = s.commPeriod := rfl
@[simp] theorem refuseWord_ctIf (w : Command) (s : State) : (refuseWord w s).ctIf = s.ctIf := rfl
@[simp] theorem refuseWord_sample (w : Command) (s : State) : (refuseWord w s).sample = s.sample := rfl
@[simp] theorem refuseWord_sampleValid (w : Command) (s : State) : (refuseWord w s).sampleValid = s.sampleValid := rfl
@[simp] theorem refuseWord_neutral (w : Command) (s : State) : (refuseWord w s).neutral = s.neutral := rfl
@[simp] theorem refuseWord_neutralValid (w : Command) (s : State) : (refuseWord w s).neutralValid = s.neutralValid := rfl
@[simp] theorem refuseWord_dmaIdx (w : Command) (s : State) : (refuseWord w s).dmaIdx = s.dmaIdx := rfl
@[simp] theorem refuseWord_adcBusy (w : Command) (s : State) : (refuseWord w s).adcBusy = s.adcBusy := rfl
@[simp] theorem refuseWord_adcSeq (w : Command) (s : State) : (refuseWord w s).adcSeq = s.adcSeq := rfl
@[simp] theorem refuseWord_dmaActive (w : Command) (s : State) : (refuseWord w s).dmaActive = s.dmaActive := rfl
@[simp] theorem refuseWord_tcIf (w : Command) (s : State) : (refuseWord w s).tcIf = s.tcIf := rfl
@[simp] theorem refuseWord_teIf (w : Command) (s : State) : (refuseWord w s).teIf = s.teIf := rfl
@[simp] theorem refuseWord_dmeIf (w : Command) (s : State) : (refuseWord w s).dmeIf = s.dmeIf := rfl
@[simp] theorem refuseWord_ovrIf (w : Command) (s : State) : (refuseWord w s).ovrIf = s.ovrIf := rfl
@[simp] theorem refuseWord_eocIf (w : Command) (s : State) : (refuseWord w s).eocIf = s.eocIf := rfl
@[simp] theorem refuseWord_teCnt (w : Command) (s : State) : (refuseWord w s).teCnt = s.teCnt := rfl
@[simp] theorem refuseWord_dmeCnt (w : Command) (s : State) : (refuseWord w s).dmeCnt = s.dmeCnt := rfl
@[simp] theorem refuseWord_ovrCnt (w : Command) (s : State) : (refuseWord w s).ovrCnt = s.ovrCnt := rfl
@[simp] theorem refuseWord_tch (w : Command) (s : State) : (refuseWord w s).tch = s.tch := rfl
@[simp] theorem refuseWord_acc (w : Command) (s : State) : (refuseWord w s).acc = s.acc := rfl
@[simp] theorem refuseWord_halted (w : Command) (s : State) : (refuseWord w s).halted = s.halted := rfl
@[simp] theorem refuseWord_haltCause (w : Command) (s : State) : (refuseWord w s).haltCause = s.haltCause := rfl
@[simp] theorem refuseWord_haltInfo (w : Command) (s : State) : (refuseWord w s).haltInfo = s.haltInfo := rfl
@[simp] theorem refuseWord_hist (w : Command) (s : State) : (refuseWord w s).hist = s.hist ++ [.refused w] := rfl
@[simp] theorem refuseWord_response (w : Command) (s : State) : (refuseWord w s).response = some ⟨false, 0⟩ := rfl
@[simp] theorem refuseWord_adcBits (w : Command) (s : State) : (refuseWord w s).adcBits = s.adcBits := rfl
@[simp] theorem refuseWord_ovrRealign (w : Command) (s : State) : (refuseWord w s).ovrRealign = s.ovrRealign := rfl
@[simp] theorem refuseWord_turns (w : Command) (s : State) : (refuseWord w s).turns = s.turns := rfl
@[simp] theorem refuseWord_hostWords (w : Command) (s : State) : (refuseWord w s).hostWords = s.hostWords := rfl
@[simp] theorem refuseWord_freeInputs (w : Command) (s : State) : (refuseWord w s).freeInputs = s.freeInputs := rfl
@[simp] theorem refuseWord_drawCount (w : Command) (s : State) : (refuseWord w s).drawCount = s.drawCount := rfl

@[simp] theorem haltWith_stepIndex (c : HaltCause) (v : U32) (s : State) : (haltWith c v s).stepIndex = s.stepIndex := rfl
@[simp] theorem haltWith_duty (c : HaltCause) (v : U32) (s : State) : (haltWith c v s).duty = s.duty := rfl
@[simp] theorem haltWith_dutyValid (c : HaltCause) (v : U32) (s : State) : (haltWith c v s).dutyValid = s.dutyValid := rfl
@[simp] theorem haltWith_period (c : HaltCause) (v : U32) (s : State) : (haltWith c v s).period = s.period := rfl
@[simp] theorem haltWith_cmp (c : HaltCause) (v : U32) (s : State) : (haltWith c v s).cmp = s.cmp := rfl
@[simp] theorem haltWith_en (c : HaltCause) (v : U32) (s : State) : (haltWith c v s).en = s.en := rfl
@[simp] theorem haltWith_run (c : HaltCause) (v : U32) (s : State) : (haltWith c v s).run = false := rfl
@[simp] theorem haltWith_dir (c : HaltCause) (v : U32) (s : State) : (haltWith c v s).dir = s.dir := rfl
@[simp] theorem haltWith_commPeriod (c : HaltCause) (v : U32) (s : State) : (haltWith c v s).commPeriod = s.commPeriod := rfl
@[simp] theorem haltWith_ctIf (c : HaltCause) (v : U32) (s : State) : (haltWith c v s).ctIf = s.ctIf := rfl
@[simp] theorem haltWith_sample (c : HaltCause) (v : U32) (s : State) : (haltWith c v s).sample = s.sample := rfl
@[simp] theorem haltWith_sampleValid (c : HaltCause) (v : U32) (s : State) : (haltWith c v s).sampleValid = s.sampleValid := rfl
@[simp] theorem haltWith_neutral (c : HaltCause) (v : U32) (s : State) : (haltWith c v s).neutral = s.neutral := rfl
@[simp] theorem haltWith_neutralValid (c : HaltCause) (v : U32) (s : State) : (haltWith c v s).neutralValid = s.neutralValid := rfl
@[simp] theorem haltWith_dmaIdx (c : HaltCause) (v : U32) (s : State) : (haltWith c v s).dmaIdx = s.dmaIdx := rfl
@[simp] theorem haltWith_adcBusy (c : HaltCause) (v : U32) (s : State) : (haltWith c v s).adcBusy = s.adcBusy := rfl
@[simp] theorem haltWith_adcSeq (c : HaltCause) (v : U32) (s : State) : (haltWith c v s).adcSeq = s.adcSeq := rfl
@[simp] theorem haltWith_dmaActive (c : HaltCause) (v : U32) (s : State) : (haltWith c v s).dmaActive = s.dmaActive := rfl
@[simp] theorem haltWith_tcIf (c : HaltCause) (v : U32) (s : State) : (haltWith c v s).tcIf = s.tcIf := rfl
@[simp] theorem haltWith_teIf (c : HaltCause) (v : U32) (s : State) : (haltWith c v s).teIf = s.teIf := rfl
@[simp] theorem haltWith_dmeIf (c : HaltCause) (v : U32) (s : State) : (haltWith c v s).dmeIf = s.dmeIf := rfl
@[simp] theorem haltWith_ovrIf (c : HaltCause) (v : U32) (s : State) : (haltWith c v s).ovrIf = s.ovrIf := rfl
@[simp] theorem haltWith_eocIf (c : HaltCause) (v : U32) (s : State) : (haltWith c v s).eocIf = s.eocIf := rfl
@[simp] theorem haltWith_teCnt (c : HaltCause) (v : U32) (s : State) : (haltWith c v s).teCnt = s.teCnt := rfl
@[simp] theorem haltWith_dmeCnt (c : HaltCause) (v : U32) (s : State) : (haltWith c v s).dmeCnt = s.dmeCnt := rfl
@[simp] theorem haltWith_ovrCnt (c : HaltCause) (v : U32) (s : State) : (haltWith c v s).ovrCnt = s.ovrCnt := rfl
@[simp] theorem haltWith_tch (c : HaltCause) (v : U32) (s : State) : (haltWith c v s).tch = s.tch := rfl
@[simp] theorem haltWith_acc (c : HaltCause) (v : U32) (s : State) : (haltWith c v s).acc = s.acc := rfl
@[simp] theorem haltWith_halted (c : HaltCause) (v : U32) (s : State) : (haltWith c v s).halted = true := rfl
@[simp] theorem haltWith_haltCause (c : HaltCause) (v : U32) (s : State) : (haltWith c v s).haltCause = c := rfl
@[simp] theorem haltWith_haltInfo (c : HaltCause) (v : U32) (s : State) : (haltWith c v s).haltInfo = v := rfl
@[simp] theorem haltWith_hist (c : HaltCause) (v : U32) (s : State) : (haltWith c v s).hist = s.hist ++ [.halt c v] := rfl
@[simp] theorem haltWith_response (c : HaltCause) (v : U32) (s : State) : (haltWith c v s).response = some ⟨false, c.code.setWidth 32⟩ := rfl
@[simp] theorem haltWith_adcBits (c : HaltCause) (v : U32) (s : State) : (haltWith c v s).adcBits = s.adcBits := rfl
@[simp] theorem haltWith_ovrRealign (c : HaltCause) (v : U32) (s : State) : (haltWith c v s).ovrRealign = s.ovrRealign := rfl
@[simp] theorem haltWith_turns (c : HaltCause) (v : U32) (s : State) : (haltWith c v s).turns = s.turns := rfl
@[simp] theorem haltWith_hostWords (c : HaltCause) (v : U32) (s : State) : (haltWith c v s).hostWords = s.hostWords := rfl
@[simp] theorem haltWith_freeInputs (c : HaltCause) (v : U32) (s : State) : (haltWith c v s).freeInputs = s.freeInputs := rfl
@[simp] theorem haltWith_drawCount (c : HaltCause) (v : U32) (s : State) : (haltWith c v s).drawCount = s.drawCount := rfl

end Sys2Proof.Machine
end

