-- ==== Sys2Proof/Laws/Ops.lean ====
section
/-! SUPPORT. What each shared operation can do, said once. -/

namespace Sys2Proof

/-! ## Triples -/

@[simp] theorem Three.get_set_same {α : Type} (t : Three α) (p : Phase) (v : α) :
    (t.set p v).get p = v := by
  match p with
  | 0 => rfl
  | 1 => rfl
  | 2 => rfl

theorem Three.get_set_other {α : Type} (t : Three α) {p q : Phase} (v : α) (h : q ≠ p) :
    (t.set p v).get q = t.get q := by
  match p, q with
  | 0, 1 => rfl
  | 0, 2 => rfl
  | 1, 0 => rfl
  | 1, 2 => rfl
  | 2, 0 => rfl
  | 2, 1 => rfl
  | 0, 0 => exact absurd rfl h
  | 1, 1 => exact absurd rfl h
  | 2, 2 => exact absurd rfl h

theorem Three.get_set {α : Type} (t : Three α) (p q : Phase) (v : α) :
    (t.set p v).get q = if q = p then v else t.get q := by
  by_cases h : q = p
  · subst h; simp
  · simp [h, Three.get_set_other]

namespace Machine

/-! ## Operands -/

theorem phaseOf_phase (p : Phase) : phaseOf (BitVec.ofNat 8 p.val) = some p := by
  match p with
  | 0 => rfl
  | 1 => rfl
  | 2 => rfl

theorem phaseOf_none {sel : U8} : phaseOf sel = none ↔ 3 ≤ sel.toNat := by
  unfold phaseOf; split <;> simp <;> omega

theorem stepOf_step (k : StepIndex) : stepOf (BitVec.ofNat 16 k.val) = some k := by
  match k with
  | 0 => rfl
  | 1 => rfl
  | 2 => rfl
  | 3 => rfl
  | 4 => rfl
  | 5 => rfl

theorem stepOf_none {imm : U16} : stepOf imm = none ↔ 6 ≤ imm.toNat := by
  unfold stepOf; split <;> simp <;> omega

/-! ## Views -/

theorem getLsbD_fieldAt {w : Nat} (n : Nat) (v : BitVec w) (i : Nat) :
    (fieldAt n v).getLsbD i = (decide (n ≤ i) && decide (i < 32) && v.getLsbD (i - n)) := by
  simp only [fieldAt, BitVec.getLsbD_shiftLeft, BitVec.getLsbD_setWidth]
  by_cases h1 : i < 32 <;> by_cases h2 : i < n
  · simp [h1, h2, Nat.not_le.2 h2]
  · have h3 : i - n < 32 := by omega
    simp [h1, h2, h3, Nat.not_lt.1 h2]
  · simp [h1]
  · simp [h1]

theorem getLsbD_bitAt (n : Nat) (b : Bool) (i : Nat) :
    (bitAt n b).getLsbD i = (decide (i = n) && decide (i < 32) && b) := by
  simp only [bitAt, getLsbD_fieldAt]
  by_cases h1 : i = n
  · subst h1; cases b <;> simp
  · by_cases h2 : n ≤ i
    · have h3 : i - n ≠ 0 := by omega
      cases b <;> simp [h1, h2, h3]
    · simp [h1, h2]

@[simp] theorem getElem_fieldAt {w : Nat} (n : Nat) (v : BitVec w) (i : Nat) (h : i < 32) :
    (fieldAt n v)[i] = (decide (n ≤ i) && v.getLsbD (i - n)) := by
  rw [← BitVec.getLsbD_eq_getElem, getLsbD_fieldAt]; simp [h]

@[simp] theorem getElem_bitAt (n : Nat) (b : Bool) (i : Nat) (h : i < 32) :
    (bitAt n b)[i] = (decide (i = n) && b) := by
  rw [← BitVec.getLsbD_eq_getElem, getLsbD_bitAt]; simp [h]

/-! ## Draws and reads of unwritten state -/

theorem drawn_lt {n : Nat} (h : 0 < n) (s : State) : drawn n s < n := Nat.mod_lt _ h

theorem readDuty_written {s : State} (h : s.dutyValid = true) : readDuty s = (s.duty, s) := by
  simp [readDuty, h]

theorem readDuty_unwritten {s : State} (h : s.dutyValid = false) :
    ∃ d : Float32Bits, d.toNat ≤ oneMagnitude ∧ readDuty s = (d, countDraw s) := by
  refine ⟨_, ?_, by simp [readDuty, h]; rfl⟩
  have := drawn_lt (n := oneMagnitude + 1) (by decide) s
  simp only [BitVec.toNat_ofNat]
  rw [Nat.mod_eq_of_lt] <;> (unfold oneMagnitude at *; omega)

theorem readNeutral_written {s : State} (h : s.neutralValid = true) :
    readNeutral s = (s.neutral, s) := by
  simp [readNeutral, h]

theorem readNeutral_unwritten {s : State} (h : s.neutralValid = false) :
    ∃ v : U16, readNeutral s = (v, countDraw s) := ⟨_, by simp [readNeutral, h]; rfl⟩

theorem readSample_written {k : Phase} {s : State} (h : s.sampleValid.get k = true) :
    readSample k s = (s.sample.get k, s) := by
  simp [readSample, h]

theorem readSample_unwritten {k : Phase} {s : State} (h : s.sampleValid.get k = false)
    (hb : s.adcBits ≤ 16) :
    ∃ v : U16, v.toNat < 2 ^ s.adcBits ∧ readSample k s = (v, countDraw s) := by
  refine ⟨_, ?_, by simp [readSample, h]; rfl⟩
  have hp : 2 ^ s.adcBits ≤ 2 ^ 16 := Nat.pow_le_pow_right (by decide) hb
  have := drawn_lt (n := 2 ^ s.adcBits) (Nat.two_pow_pos _) s
  simp only [BitVec.toNat_ofNat]
  rw [Nat.mod_eq_of_lt] <;> omega

/-- A read changes nothing but the number of draws made. -/
theorem readDuty_state (s : State) :
    (readDuty s).2 = { s with drawCount := (readDuty s).2.drawCount } := by
  unfold readDuty; split <;> rfl

theorem readNeutral_state (s : State) :
    (readNeutral s).2 = { s with drawCount := (readNeutral s).2.drawCount } := by
  unfold readNeutral; split <;> rfl

theorem readSample_state (k : Phase) (s : State) :
    (readSample k s).2 = { s with drawCount := (readSample k s).2.drawCount } := by
  unfold readSample; split <;> rfl

theorem readRegister_state (r : Reg) (s : State) :
    (readRegister r s).2 = { s with drawCount := (readRegister r s).2.drawCount } := by
  cases r <;> first | rfl | exact readDuty_state s | exact readNeutral_state s | exact readSample_state _ s

/-! ## The gates -/

theorem whenEnabled_true {b : Bool} (h : b = true) (f : State → State) (s : State) :
    whenEnabled b f s = .next (f s) := by simp [whenEnabled, h]

theorem whenEnabled_false {b : Bool} (h : b = false) (f : State → State) (s : State) :
    whenEnabled b f s = .next s := by simp [whenEnabled, h]

theorem whenEnabled_next {b : Bool} {f : State → State} {s t : State}
    (h : whenEnabled b f s = .next t) : (b = true ∧ t = f s) ∨ (b = false ∧ t = s) := by
  cases b
  · exact .inr ⟨rfl, by simpa [whenEnabled] using h.symm⟩
  · exact .inl ⟨rfl, by simpa [whenEnabled] using h.symm⟩

theorem hostWrite_ready {i : Instr} {f : State → State} {s : State} (h : s.Ready) :
    hostWrite i f s = .next (f s) := by
  simp [hostWrite, whenEnabled, hostEnabled, h.1, h.2]

theorem hostWrite_refused {i : Instr} {f : State → State} {s : State} (hi : s.tch = .idle)
    (hh : s.halted = true) : hostWrite i f s = .next (refuseWord (encode i) s) := by
  simp [hostWrite, whenEnabled, hostEnabled, hi, hh]

theorem hostWrite_held {i : Instr} {f : State → State} {s : State} (h : s.tch ≠ .idle) :
    hostWrite i f s = .next s := by
  simp [hostWrite, whenEnabled, hostEnabled, h]

/-- Everything a command that is no read can do. -/
theorem hostWrite_next {i : Instr} {f : State → State} {s t : State} (h : hostWrite i f s = .next t) :
    (s.tch ≠ .idle ∧ t = s) ∨
    (s.tch = .idle ∧ s.halted = true ∧ t = refuseWord (encode i) s) ∨
    (s.tch = .idle ∧ s.halted = false ∧ t = f s) := by
  by_cases hi : s.tch = .idle
  · cases hh : s.halted
    · rw [hostWrite_ready ⟨hi, hh⟩] at h
      exact .inr (.inr ⟨hi, rfl, by simpa using h.symm⟩)
    · rw [hostWrite_refused hi hh] at h
      exact .inr (.inl ⟨hi, rfl, by simpa using h.symm⟩)
  · rw [hostWrite_held hi] at h
    exact .inl ⟨hi, by simpa using h.symm⟩

theorem hostRead_served {i : Instr} {f : State → State} {s : State} (h : s.tch = .idle) :
    hostRead i (some f) s = .next (f s) := by
  simp [hostRead, whenEnabled, hostEnabled, h]

theorem hostRead_rejected {i : Instr} {s : State} (h : s.tch = .idle) :
    hostRead i none s = .next (rejectWord (encode i) s) := by
  simp [hostRead, whenEnabled, hostEnabled, h]

theorem hostRead_held {i : Instr} {f : Option (State → State)} {s : State} (h : s.tch ≠ .idle) :
    hostRead i f s = .next s := by
  simp [hostRead, whenEnabled, hostEnabled, h]

/-- Everything a read can do. -/
theorem hostRead_next {i : Instr} {f : Option (State → State)} {s t : State}
    (h : hostRead i f s = .next t) :
    (s.tch ≠ .idle ∧ t = s) ∨
    (s.tch = .idle ∧ ∃ g, f = some g ∧ t = g s) ∨
    (s.tch = .idle ∧ f = none ∧ t = rejectWord (encode i) s) := by
  by_cases hi : s.tch = .idle
  · cases f with
    | some g =>
      rw [hostRead_served hi] at h
      exact .inr (.inl ⟨hi, g, rfl, by simpa using h.symm⟩)
    | none =>
      rw [hostRead_rejected hi] at h
      exact .inr (.inr ⟨hi, rfl, by simpa using h.symm⟩)
  · rw [hostRead_held hi] at h
    exact .inl ⟨hi, by simpa using h.symm⟩

theorem rejectWord_halted {s : State} (h : s.halted = true) (w : Command) :
    rejectWord w s = refuseWord w s := by simp [rejectWord, h]

theorem rejectWord_running {s : State} (h : s.halted = false) (w : Command) :
    rejectWord w s = haltWith .illegalCommand (highHalf w) s := by simp [rejectWord, h]

/-! ## Roles -/

/-- Every row of ROLE_TABLE has each role at exactly the phase `phaseWith` finds
(44_commutation.md rule R191). -/
theorem roleTable_get (k : StepIndex) (r : Role) (p : Phase) :
    (roleTable k).get p = r ↔ phaseWith (roleTable k) r = p := by
  cases r <;> (revert k p; decide)

/-- do_set_step writes CMP, EN, the history and the draws, and nothing else (44_commutation.md rule
R193). -/
theorem doSetStep_state (k : StepIndex) (s : State) :
    doSetStep k s = { s with
      cmp := (doSetStep k s).cmp
      en := (doSetStep k s).en
      hist := (doSetStep k s).hist
      drawCount := (readDuty s).2.drawCount } := by
  have h := readDuty_state s
  generalize (readDuty s).2.drawCount = n at h ⊢
  simp only [doSetStep, applyRole, record, h]

theorem doSetStep_en (k : StepIndex) (s : State) : (doSetStep k s).en = enableRow k := by
  match k with
  | 0 => rfl
  | 1 => rfl
  | 2 => rfl
  | 3 => rfl
  | 4 => rfl
  | 5 => rfl

theorem doSetStep_hist (k : StepIndex) (s : State) :
    (doSetStep k s).hist = s.hist ++ roleRecords k := by
  have h : (readDuty s).2.hist = s.hist := by rw [readDuty_state]
  match k with
  | 0 | 1 | 2 | 3 | 4 | 5 =>
    simp [doSetStep, applyRole, record, h, roleTable, phaseWith, roleRecords]

theorem doSetStep_cmp (k : StepIndex) (s : State) :
    (doSetStep k s).cmp = { e0 := dutyToCompare (match (roleTable k).e0 with
                                    | .floating => 0
                                    | .neutral => 0x3F800000
                                    | .line => (readDuty s).1) s.period
                            e1 := dutyToCompare (match (roleTable k).e1 with
                                    | .floating => 0
                                    | .neutral => 0x3F800000
                                    | .line => (readDuty s).1) s.period
                            e2 := dutyToCompare (match (roleTable k).e2 with
                                    | .floating => 0
                                    | .neutral => 0x3F800000
                                    | .line => (readDuty s).1) s.period } := by
  have h : (readDuty s).2.period = s.period := by rw [readDuty_state]
  match k with
  | 0 | 1 | 2 | 3 | 4 | 5 =>
    simp [doSetStep, applyRole, record, h, roleTable, phaseWith, Three.set]

/-! ## Scan and buffer position -/

theorem nextPhase_eq (p : Phase) : nextPhase p = p + 1 := by
  revert p; decide

/-- A scan's channel after the next one: back to channel 0 after channel 2 (43_sense.md rule R162). -/
theorem nextPhase_scan (p : Phase) : nextPhase p = if p = 2 then 0 else p + 1 := by
  revert p; decide

theorem advanceScan_eq (s : State) :
    advanceScan s = { s with adcSeq := nextPhase s.adcSeq
                             adcBusy := s.adcBusy && decide (s.adcSeq ≠ 2) } := by
  unfold advanceScan
  split
  · rename_i h; simp [h]; rfl
  · rename_i h; simp [h]

theorem realignAfterDrop_eq (s : State) :
    realignAfterDrop s = { s with dmaIdx := if s.ovrRealign then nextPhase s.dmaIdx else s.dmaIdx } := by
  unfold realignAfterDrop; split <;> rfl

/-! ## Inputs -/

theorem popTurn_cons {s : State} {u : Turn} {us : List Turn} (h : s.turns = u :: us) :
    popTurn s = { s with turns := us } := by simp [popTurn, h]

theorem nextTurn_cons {s : State} {u : Turn} {us : List Turn} (h : s.turns = u :: us) :
    nextTurn s = u := by simp [nextTurn, h]

theorem popWord_cons {s : State} {w : Command} {ws : List Command} (h : s.hostWords = w :: ws) :
    popWord s = { s with hostWords := ws } := by simp [popWord, h]

theorem nextWord_cons {s : State} {w : Command} {ws : List Command} (h : s.hostWords = w :: ws) :
    nextWord s = w := by simp [nextWord, h]

/-- Reading a turn changes only the model's own inputs. -/
theorem popTurn_state (s : State) :
    popTurn s = { s with turns := (popTurn s).turns, freeInputs := (popTurn s).freeInputs } := by
  unfold popTurn; split <;> rfl

theorem popWord_state (s : State) :
    popWord s = { s with hostWords := (popWord s).hostWords, freeInputs := (popWord s).freeInputs } := by
  unfold popWord; split <;> rfl

end Machine

end Sys2Proof
end

