-- ==== Sys2Proof/Laws/PerInstr.lean ====
section
/-! SUPPORT. The family CodeField: the word of every instruction carries its code where a decoder looks
for it, OP in bits 63:56 of a command word (30_encoding.md rule R101), the event code in bits 7:0 of an
event word (rule R111, log 11). -/

namespace Sys2Proof.Laws.CodeField

def Statement (i : Instr) : Prop :=
  if i.isCommand then opField (encode i) = i.code else eventCode (encode i) = i.code

theorem nop : Statement .nop := opField_commandWord _ _ _ _
theorem setDuty (a : Float32Bits) : Statement (.setDuty a) := opField_commandWord _ _ _ _
theorem setPeriod (a : U16) : Statement (.setPeriod a) := opField_commandWord _ _ _ _
theorem enable (a : Bool) : Statement (.enable a) := opField_commandWord _ _ _ _
theorem setStep (a : U16) : Statement (.setStep a) := opField_commandWord _ _ _ _
theorem advanceFwd : Statement .advanceFwd := opField_commandWord _ _ _ _
theorem advanceBwd : Statement .advanceBwd := opField_commandWord _ _ _ _
theorem setCommPeriod (a : U32) : Statement (.setCommPeriod a) := opField_commandWord _ _ _ _
theorem pwmSetDuty (a : U8) (b : Float32Bits) : Statement (.pwmSetDuty a b) := opField_commandWord _ _ _ _
theorem pullPhase (a : U8) (b : Bool) : Statement (.pullPhase a b) := opField_commandWord _ _ _ _
theorem readNeutral : Statement .readNeutral := opField_commandWord _ _ _ _
theorem readErrcnt (a : U8) : Statement (.readErrcnt a) := opField_commandWord _ _ _ _
theorem readReg (a : U8) : Statement (.readReg a) := opField_commandWord _ _ _ _
theorem ctExpire : Statement .ctExpire := eventCode_eventWord _ _
theorem tick : Statement .tick := eventCode_eventWord _ _
theorem pwmTrigger : Statement .pwmTrigger := eventCode_eventWord _ _
theorem adcConvBeat (a : U16) : Statement (.adcConvBeat a) := eventCode_eventWord _ _
theorem adcConvDrop : Statement .adcConvDrop := eventCode_eventWord _ _
theorem dmaTe (a : Bool) : Statement (.dmaTe a) := eventCode_eventWord _ _
theorem dmaDme (a : Bool) : Statement (.dmaDme a) := eventCode_eventWord _ _
theorem tcBegin : Statement .tcBegin := eventCode_eventWord _ _
theorem tcRead : Statement .tcRead := eventCode_eventWord _ _
theorem errHandle : Statement .errHandle := eventCode_eventWord _ _
theorem adcStatusHandle : Statement .adcStatusHandle := eventCode_eventWord _ _
theorem reset (a : U16) (b : U32) (c : Direction) : Statement (.reset a b c) := eventCode_eventWord _ _

end Sys2Proof.Laws.CodeField
end

