-- ==== Sys2Proof/Laws/Step.lean ====
section
/-! SUPPORT. Everything a step can do, said once: `Change i s t` lists, for each instruction, the states
that `exec i s` can answer. A claim about every step is a case analysis of `exec_change` and
`step_change`. -/

namespace Sys2Proof.Machine

/-- What do_set_step can do, with the compares and the draws left open. -/
theorem doSetStep_change (k : StepIndex) (s : State) : ∃ c n, doSetStep k s = { s with
    cmp := c
    en := enableRow k
    hist := s.hist ++ roleRecords k
    drawCount := n } := by
  refine ⟨(doSetStep k s).cmp, (readDuty s).2.drawCount, ?_⟩
  rw [← doSetStep_hist, ← doSetStep_en (s := s)]
  exact doSetStep_state k s

/-- The states that a step `i` from `s` can lead to. -/
inductive Change : Instr → State → State → Prop
  /-- Not enabled, or HOST held. -/
  | stays (i s) : enabled i s = false → Change i s s
  | refuses (i s) : s.tch = .idle → s.halted = true → i.isCommand = true →
      Change i s { s with
        hist := s.hist ++ [.refused (encode i)]
        response := some ⟨false, 0⟩ }
  | halts (i s c info) : s.tch = .idle → s.halted = false → c ≠ HaltCause.none →
      i.isCommand = true →
      Change i s { s with
        halted := true
        haltCause := c
        haltInfo := info
        run := false
        hist := s.hist ++ [.halt c info]
        response := some ⟨false, c.code.setWidth 32⟩ }
  | nop (s) : s.Ready →
      Change .nop s { s with hist := s.hist ++ [.nop], response := some ⟨true, 0⟩ }
  | setDuty (s f) : s.Ready →
      Change (.setDuty f) s { s with
        duty := clamp01 f
        dutyValid := true
        hist := s.hist ++ [.setDuty f]
        response := some ⟨true, 0⟩ }
  | setPeriod (s p) : s.Ready →
      Change (.setPeriod p) s { s with
        period := p
        hist := s.hist ++ [.setPeriod p]
        response := some ⟨true, 0⟩ }
  | enable (s on) : s.Ready →
      Change (.enable on) s { s with
        run := on
        hist := s.hist ++ [.enable on]
        response := some ⟨true, 0⟩ }
  | setStep (s step k c n) : s.Ready →
      Change (.setStep step) s { s with
        cmp := c
        en := enableRow k
        drawCount := n
        hist := s.hist ++ roleRecords k ++ [.setStep step]
        response := some ⟨true, 0⟩ }
  | advanceFwd (s) : s.Ready →
      Change .advanceFwd s { s with
        stepIndex := advanceForward s.stepIndex
        hist := s.hist ++ [.advanceFwd]
        response := some ⟨true, 0⟩ }
  | advanceBwd (s) : s.Ready →
      Change .advanceBwd s { s with
        stepIndex := advanceBackward s.stepIndex
        hist := s.hist ++ [.advanceBwd]
        response := some ⟨true, 0⟩ }
  | setCommPeriod (s us) : s.Ready →
      Change (.setCommPeriod us) s { s with
        commPeriod := clampCommPeriod us
        hist := s.hist ++ [.setCommPeriod us]
        response := some ⟨true, 0⟩ }
  | pwmSetDuty (s sel f c) : s.Ready → phaseOf sel = some c →
      Change (.pwmSetDuty sel f) s { s with
        cmp := s.cmp.set c (dutyToCompare f s.period)
        hist := s.hist ++ [.pwmSetDuty c f]
        response := some ⟨true, 0⟩ }
  | pullPhase (s sel up p) : s.Ready → phaseOf sel = some p →
      Change (.pullPhase sel up) s { s with
        en := s.en.set p up
        hist := s.hist ++ [.pullPhase p up]
        response := some ⟨true, 0⟩ }
  | readNeutral (s n v) : s.tch = .idle →
      Change .readNeutral s { s with
        drawCount := n
        hist := s.hist ++ [.readNeutral]
        response := some ⟨true, v⟩ }
  | readErrcnt (s sel c v) : s.tch = .idle →
      Change (.readErrcnt sel) s { s with
        hist := s.hist ++ [.readErrCnt c]
        response := some ⟨true, v⟩ }
  | readReg (s sel r n v) : s.tch = .idle →
      Change (.readReg sel) s { s with
        drawCount := n
        hist := s.hist ++ [.readReg r]
        response := some ⟨true, v⟩ }
  | ctExpire (s) :
      Change .ctExpire s { s with
        ctIf := true
        hist := s.hist ++ [.ctExpire] }
  | tick (s c n) : s.halted = false → s.ctIf = true →
      Change .tick s { s with
        cmp := c
        en := enableRow s.stepIndex
        drawCount := n
        stepIndex := advance s.dir s.stepIndex
        ctIf := false
        hist := s.hist ++ roleRecords s.stepIndex ++ [.tick s.stepIndex] }
  | triggerIgnored (s) : s.run = true → s.adcBusy = true →
      Change .pwmTrigger s { s with hist := s.hist ++ [.pwmTrigger] }
  | triggerStarts (s) : s.run = true → s.adcBusy = false →
      Change .pwmTrigger s { s with
        adcBusy := true
        adcSeq := 0
        hist := s.hist ++ [.pwmTrigger] }
  | convBeat (s v) : s.adcBusy = true → s.dmaActive = true → v.toNat < 2 ^ s.adcBits →
      Change (.adcConvBeat v) s { s with
        sample := s.sample.set s.dmaIdx v
        sampleValid := s.sampleValid.set s.dmaIdx true
        eocIf := true
        tcIf := s.tcIf || s.dmaIdx == 2
        dmaIdx := nextPhase s.dmaIdx
        adcSeq := nextPhase s.adcSeq
        adcBusy := decide (s.adcSeq ≠ 2)
        hist := s.hist ++ [.convBeat s.adcSeq s.dmaIdx v] }
  | convDrop (s) : s.adcBusy = true →
      Change .adcConvDrop s { s with
        ovrIf := true
        eocIf := true
        dmaIdx := if s.ovrRealign then nextPhase s.dmaIdx else s.dmaIdx
        adcSeq := nextPhase s.adcSeq
        adcBusy := decide (s.adcSeq ≠ 2)
        hist := s.hist ++ [.convDrop s.adcSeq] }
  | dmaTe (s stop) : s.dmaActive = true →
      Change (.dmaTe stop) s { s with
        teIf := true
        dmaActive := !stop
        hist := s.hist ++ [.dmaTe stop] }
  | dmaDme (s stop) : s.dmaActive = true →
      Change (.dmaDme stop) s { s with
        dmeIf := true
        dmaActive := !stop
        hist := s.hist ++ [.dmaDme stop] }
  | tcBegin (s) : s.halted = false → s.tch = .idle → s.tcIf = true →
      Change .tcBegin s { s with
        tcIf := false
        acc := 0
        tch := .read 0
        hist := s.hist ++ [.tcBegin] }
  | tcReadOn (s k n) : s.halted = false → s.tch = .read k → k ≠ 2 →
      Change .tcRead s { s with
        drawCount := n
        acc := s.acc + (readSample k s).1.setWidth 18
        tch := .read (nextPhase k)
        hist := s.hist ++ [.tcRead k (readSample k s).1] }
  | tcReadLast (s n) : s.halted = false → s.tch = .read 2 →
      Change .tcRead s { s with
        drawCount := n
        neutral := neutralOf (s.acc + (readSample 2 s).1.setWidth 18)
        neutralValid := true
        acc := 0
        tch := .idle
        hist := s.hist ++ [.tcRead 2 (readSample 2 s).1] }
  | errHandle (s) : s.halted = false → (s.teIf || s.dmeIf) = true →
      Change .errHandle s { s with
        teCnt := countIf s.teIf s.teCnt
        teIf := false
        dmeCnt := countIf s.dmeIf s.dmeCnt
        dmeIf := false
        hist := s.hist ++ [.errHandle] }
  | adcStatusHandle (s) : s.halted = false → (s.ovrIf || s.eocIf) = true →
      Change .adcStatusHandle s { s with
        ovrCnt := countIf s.ovrIf s.ovrCnt
        ovrIf := false
        eocIf := false
        hist := s.hist ++ [.adcStatusHandle] }
  | reset (s p us d) : Change (.reset p us d) s (resetBlock p us d s)

theorem hostWrite_change {i : Instr} {f : State → State} {s t : State} (h : hostWrite i f s = .next t)
    (hc : i.isCommand = true) (he : enabled i s = hostEnabled s)
    (hf : s.Ready → Change i s (f s)) : Change i s t := by
  rcases hostWrite_next h with ⟨h1, rfl⟩ | ⟨h1, h2, rfl⟩ | ⟨h1, h2, rfl⟩
  · exact .stays _ _ (by rw [he]; simp [hostEnabled, h1])
  · exact .refuses i s h1 h2 hc
  · exact hf ⟨h1, h2⟩

theorem hostRead_change {i : Instr} {f : Option (State → State)} {s t : State}
    (h : hostRead i f s = .next t) (hc : i.isCommand = true) (he : enabled i s = hostEnabled s)
    (hf : s.tch = .idle → ∀ g, f = some g → Change i s (g s)) : Change i s t := by
  rcases hostRead_next h with ⟨h1, rfl⟩ | ⟨h1, g, h2, rfl⟩ | ⟨h1, h2, rfl⟩
  · exact .stays _ _ (by rw [he]; simp [hostEnabled, h1])
  · exact hf h1 g h2
  · cases hh : s.halted
    · rw [rejectWord_running hh]
      exact .halts i s .illegalCommand _ h1 hh (by decide) hc
    · rw [rejectWord_halted hh]
      exact .refuses i s h1 hh hc

theorem event_change {i : Instr} {f : State → State} {s t : State}
    (h : whenEnabled (enabled i s) f s = .next t) (hf : enabled i s = true → Change i s (f s)) :
    Change i s t := by
  rcases whenEnabled_next h with ⟨h1, rfl⟩ | ⟨h1, rfl⟩
  · exact hf h1
  · exact .stays _ _ h1

theorem exec_change {i : Instr} {s t : State} (h : exec i s = .next t) : Change i s t := by
  unfold exec execNop execSetDuty execSetPeriod execEnable execSetStep execAdvanceFwd execAdvanceBwd
    execSetCommPeriod execPwmSetDuty execPullPhase execReadNeutral execReadErrcnt execReadReg
    execCtExpire execTick execPwmTrigger execAdcConvBeat execAdcConvDrop execDmaTe execDmaDme
    execTcBegin execTcRead execErrHandle execAdcStatusHandle execReset at h
  cases i with
  | nop => exact hostWrite_change h rfl rfl fun hr => .nop s hr
  | setDuty f => exact hostWrite_change h rfl rfl fun hr => .setDuty s f hr
  | setPeriod p => exact hostWrite_change h rfl rfl fun hr => .setPeriod s p hr
  | enable on => exact hostWrite_change h rfl rfl fun hr => .enable s on hr
  | setStep step =>
    refine hostWrite_change h rfl rfl fun hr => ?_
    split
    · exact .halts _ s .invalidStep _ hr.1 hr.2 (by decide) rfl
    · rename_i k _
      obtain ⟨c, n, e⟩ := doSetStep_change k s
      rw [e]
      exact .setStep s step k c n hr
  | advanceFwd => exact hostWrite_change h rfl rfl fun hr => .advanceFwd s hr
  | advanceBwd => exact hostWrite_change h rfl rfl fun hr => .advanceBwd s hr
  | setCommPeriod us => exact hostWrite_change h rfl rfl fun hr => .setCommPeriod s us hr
  | pwmSetDuty sel f =>
    refine hostWrite_change h rfl rfl fun hr => ?_
    split
    · exact .halts _ s .invalidChannel _ hr.1 hr.2 (by decide) rfl
    · exact .pwmSetDuty s sel f _ hr ‹_›
  | pullPhase sel up =>
    refine hostWrite_change h rfl rfl fun hr => ?_
    split
    · exact .halts _ s .invalidPhase _ hr.1 hr.2 (by decide) rfl
    · exact .pullPhase s sel up _ hr ‹_›
  | readNeutral =>
    refine hostRead_change h rfl rfl fun hi g hg => ?_
    cases hg
    dsimp only
    rw [readNeutral_state s]
    exact .readNeutral s _ _ hi
  | readErrcnt sel =>
    refine hostRead_change h rfl rfl fun hi g hg => ?_
    simp only [Option.map_eq_some_iff] at hg
    obtain ⟨c, _, rfl⟩ := hg
    exact .readErrcnt s _ _ _ hi
  | readReg sel =>
    refine hostRead_change h rfl rfl fun hi g hg => ?_
    simp only [Option.map_eq_some_iff] at hg
    obtain ⟨r, _, rfl⟩ := hg
    dsimp only
    rw [readRegister_state r s]
    exact .readReg s _ _ _ _ hi
  | ctExpire => exact event_change h fun _ => .ctExpire s
  | tick =>
    refine event_change h fun he => ?_
    simp only [enabled, tickEnabled, Bool.and_eq_true, Bool.not_eq_true'] at he
    obtain ⟨c, n, e⟩ := doSetStep_change s.stepIndex s
    unfold serviceTick
    rw [e]
    exact .tick s c n he.1 he.2
  | pwmTrigger =>
    refine event_change h fun he => ?_
    cases hb : s.adcBusy
    · exact .triggerStarts s he hb
    · exact .triggerIgnored s he hb
  | adcConvBeat v =>
    refine event_change h fun he => ?_
    simp only [enabled, convBeatEnabled, Bool.and_eq_true, decide_eq_true_eq] at he
    simpa [advanceScan_eq, transferSample, record, he.1.1] using Change.convBeat s v he.1.1 he.1.2 he.2
  | adcConvDrop =>
    refine event_change h fun he => ?_
    have hb : s.adcBusy = true := he
    simpa [advanceScan_eq, realignAfterDrop_eq, record, hb] using Change.convDrop s hb
  | dmaTe stop =>
    refine event_change h fun he => ?_
    have ha : s.dmaActive = true := he
    simpa [record, ha] using Change.dmaTe s stop ha
  | dmaDme stop =>
    refine event_change h fun he => ?_
    have ha : s.dmaActive = true := he
    simpa [record, ha] using Change.dmaDme s stop ha
  | tcBegin =>
    refine event_change h fun he => ?_
    simp only [enabled, tcBeginEnabled, Bool.and_eq_true, Bool.not_eq_true', beq_iff_eq] at he
    exact .tcBegin s he.1.1 he.1.2 he.2
  | tcRead =>
    refine event_change h fun he => ?_
    simp only [enabled, tcReadEnabled, Bool.and_eq_true, Bool.not_eq_true', bne_iff_ne] at he
    cases hk : s.tch with
    | idle => exact absurd hk he.2
    | read k =>
      simp only [readWord]
      rw [readSample_state k s]
      by_cases h2 : k = 2
      · subst h2
        exact .tcReadLast s _ he.1 hk
      · rw [if_neg h2]
        exact .tcReadOn s k _ he.1 hk h2
  | errHandle =>
    refine event_change h fun he => ?_
    simp only [enabled, errHandleEnabled, Bool.and_eq_true, Bool.not_eq_true'] at he
    exact .errHandle s he.1 he.2
  | adcStatusHandle =>
    refine event_change h fun he => ?_
    simp only [enabled, adcStatusHandleEnabled, Bool.and_eq_true, Bool.not_eq_true'] at he
    exact .adcStatusHandle s he.1 he.2
  | reset p us d => exact event_change h fun _ => .reset s p us d

/-- `u` is `s` but for the model's own inputs. -/
def SameBlock (s u : State) : Prop :=
  u = { s with turns := u.turns, hostWords := u.hostWords, freeInputs := u.freeInputs }

theorem sameBlock_popTurn (s : State) : SameBlock s (popTurn s) := by
  unfold SameBlock popTurn
  split <;> rfl

theorem SameBlock.popWord {s u : State} (h : SameBlock s u) : SameBlock s (popWord u) := by
  unfold SameBlock at *
  rw [popWord_state u]
  generalize (Machine.popWord u).hostWords = a
  generalize (Machine.popWord u).freeInputs = b
  rw [h]

/-- Everything a step can do: from a state that is `s` but for the inputs, nothing, an instruction, or the
rejection of a word that decodes to none. -/
theorem step_change {s t : State} (h : step s = .next t) :
    ∃ u, SameBlock s u ∧
      (t = u ∨ (∃ i, Change i u t) ∨ (∃ w, u.tch = .idle ∧ t = rejectWord w u)) := by
  unfold step hostTurn at h
  split at h
  · split at h
    · rename_i hi
      have hu := (sameBlock_popTurn s).popWord
      split at h
      · exact ⟨_, hu, .inr (.inl ⟨_, exec_change h⟩)⟩
      · refine ⟨_, hu, .inr (.inr ⟨_, ?_, by simpa using h.symm⟩)⟩
        rw [popWord_state]
        simpa [hostEnabled] using hi
    · exact ⟨_, sameBlock_popTurn s, .inl (by simpa using h.symm)⟩
  · exact ⟨_, sameBlock_popTurn s, .inr (.inl ⟨_, exec_change h⟩)⟩

end Sys2Proof.Machine
end

