-- ==== Sys2Proof/WellFormed.lean ====
section
/-! DEFINITION. The two checks that an operand's type does not already make. Every command operand
is judged by the command's own rule, never before it (30_encoding.md rule R106), so a command is always
well formed. -/

namespace Sys2Proof

/-- `i` is a step the spec has, on a block whose samples have `adcBits` significant bits. -/
def Instr.wellFormed (adcBits : Nat) (i : Instr) : Bool :=
  match i with
  | .nop => true
  | .setDuty _ => true
  | .setPeriod _ => true
  | .enable _ => true
  | .setStep _ => true
  | .advanceFwd => true
  | .advanceBwd => true
  | .setCommPeriod _ => true
  | .pwmSetDuty _ _ => true
  | .pullPhase _ _ => true
  | .readNeutral => true
  | .readErrcnt _ => true
  | .readReg _ => true
  | .ctExpire => true
  | .tick => true
  | .pwmTrigger => true
  -- every sample is below 2^ADC_BITS (00_scope.md rule R7, 43_sense.md rule R164)
  | .adcConvBeat v => decide (v.toNat < 2 ^ adcBits)
  | .adcConvDrop => true
  | .dmaTe _ => true
  | .dmaDme _ => true
  | .tcBegin => true
  | .tcRead => true
  | .errHandle => true
  | .adcStatusHandle => true
  -- INIT_COMM_PERIOD_US is at least 1 (00_scope.md rule R7)
  | .reset _ us _ => decide (us ≠ 0)

end Sys2Proof
end

