-- ==== Sys2Proof/Tests/Slice0.lean ====
section
/-! SUPPORT. Tests whose expected results are the spec's own (95_test_vectors.md, 30_encoding.md rules R103,
R111, R114), and for every statement with hypotheses a witness that meets them. -/

namespace Sys2Proof.Tests

open Sys2Proof.Machine

/-! ## Start states -/

/-- RESET(1000, 1000, FWD) with 12-bit samples and no realignment. -/
def block : State := State.constructed 1000 1000 .fwd 12 false

/-- `block` after SET_DUTY 0.25. -/
def ready : State := { block with duty := 0x3E800000, dutyValid := true }

/-- `block` halted by SET_STEP 6 (95_test_vectors.md L2.9). -/
def stopped : State :=
  { ready with halted := true, haltCause := .invalidStep, haltInfo := 6
               hist := [.halt .invalidStep 6] }

/-- A running block with a scan at channel `c` and the buffer position at `i`. -/
def scanning (c i : Phase) : State :=
  { ready with run := true, adcBusy := true, adcSeq := c, dmaIdx := i }

/-- A block whose buffer is full and whose transfer-complete flag is set (95_test_vectors.md P3). -/
def sampled : State :=
  { ready with sample := ⟨100, 200, 300⟩, sampleValid := ⟨true, true, true⟩, tcIf := true }

/-- The state a step answers. -/
def after (i : Instr) (s : State) : State :=
  match exec i s with
  | .next t => t
  | .fault _ => s
  | .refused _ => s

/-- The state the machine's step answers for a command word. -/
def afterWord (w : Nat) (s : State) : State :=
  match step (s.withFetchWord 64 w) with
  | .next t => t
  | .fault _ => s
  | .refused _ => s

/-! ## Well-formed -/

theorem test_sample_above_the_resolution_is_ill_formed :
    (Instr.adcConvBeat 4096).wellFormed 12 = false ∧
    (Instr.adcConvBeat 4095).wellFormed 12 = true := by decide

theorem test_reset_with_a_zero_commutation_period_is_ill_formed :
    (Instr.reset 1000 0 .fwd).wellFormed 12 = false ∧
    (Instr.reset 1000 1 .fwd).wellFormed 12 = true := by decide

/-! ## Decoding, from words written out by 30_encoding.md rules R100 to R104 and R111 -/

theorem test_decode_nop :
    decodeTableWord 64 0x0000000000000000 = some .nop := by decide
theorem test_decode_setDuty :
    decodeTableWord 64 0x010000003ECCCCCD = some (.setDuty 0x3ECCCCCD) := by decide
theorem test_decode_setPeriod :
    decodeTableWord 64 0x020007D000000000 = some (.setPeriod 2000) := by decide
theorem test_decode_enable :
    decodeTableWord 64 0x0300000100000000 = some (.enable true) ∧
    decodeTableWord 64 0x0300000000000000 = some (.enable false) := by decide
theorem test_decode_setStep :
    decodeTableWord 64 0x0400000600000000 = some (.setStep 6) := by decide
theorem test_decode_advanceFwd :
    decodeTableWord 64 0x0500000000000000 = some .advanceFwd := by decide
theorem test_decode_advanceBwd :
    decodeTableWord 64 0x0600000000000000 = some .advanceBwd := by decide
theorem test_decode_setCommPeriod :
    decodeTableWord 64 0x070000000000012C = some (.setCommPeriod 300) := by decide
theorem test_decode_pwmSetDuty :
    decodeTableWord 64 0x080200003F000000 = some (.pwmSetDuty 2 0x3F000000) := by decide
theorem test_decode_pullPhase :
    decodeTableWord 64 0x0901000100000000 = some (.pullPhase 1 true) := by decide
theorem test_decode_readNeutral :
    decodeTableWord 64 0x1000000000000000 = some .readNeutral := by decide
theorem test_decode_readErrcnt :
    decodeTableWord 64 0x1102000000000000 = some (.readErrcnt 2) := by decide
theorem test_decode_readReg :
    decodeTableWord 64 0x1204000000000000 = some (.readReg 4) := by decide
theorem test_decode_ctExpire : decodeTableWord 8 0x80 = some .ctExpire := by decide
theorem test_decode_tick : decodeTableWord 8 0x81 = some .tick := by decide
theorem test_decode_pwmTrigger : decodeTableWord 8 0x82 = some .pwmTrigger := by decide
theorem test_decode_adcConvBeat : decodeTableWord 8 0x83 = some (.adcConvBeat 0) := by decide
theorem test_decode_adcConvDrop : decodeTableWord 8 0x84 = some .adcConvDrop := by decide
theorem test_decode_dmaTe : decodeTableWord 8 0x85 = some (.dmaTe false) := by decide
theorem test_decode_dmaDme : decodeTableWord 8 0x86 = some (.dmaDme false) := by decide
theorem test_decode_tcBegin : decodeTableWord 8 0x87 = some .tcBegin := by decide
theorem test_decode_tcRead : decodeTableWord 8 0x88 = some .tcRead := by decide
theorem test_decode_errHandle : decodeTableWord 8 0x89 = some .errHandle := by decide
theorem test_decode_adcStatusHandle :
    decodeTableWord 8 0x8A = some .adcStatusHandle := by decide
theorem test_decode_reset : decodeTableWord 8 0x8F = some (.reset 0 0 .fwd) := by decide

/-- Unassigned opcodes (L2.8), and the codes between the events. -/
theorem test_unassigned_words_decode_to_nothing :
    (∀ w ∈ [0x0A00000000000000, 0x0F00000000000000, 0x1300000000000000, 0xFF00000000000000],
      decodeTableWord 64 w = none) ∧
    (∀ w ∈ [0x8B, 0x8E, 0x90, 0x00], decodeTableWord 8 w = none) := by decide

/-- Nonzero reserved fields (L2.3, L2.4, L2.5, L2.8). -/
theorem test_reserved_fields_decode_to_nothing :
    ∀ w ∈ [0x0000000000000001, 0x0100000100000000, 0x020003E800000001, 0x0300000200000000,
      0x0301000100000000, 0x0401000600000000, 0x080000013ECCCCCD, 0x0900000200000000,
      0x0900000100000005, 0x1000000000000001], decodeTableWord 64 w = none := by decide

/-- The model's own numbering of the events' operands (log 11), round trip. -/
theorem test_event_operands :
    decodeEvent (encode (.adcConvBeat 0xABC)) = .ok (.adcConvBeat 0xABC) ∧
    decodeEvent (encode (.dmaDme true)) = .ok (.dmaDme true) ∧
    decodeEvent (encode (.reset 1234 500 .bwd)) = .ok (.reset 1234 500 .bwd) := by decide

/-! ## Duty numerics (L2.1, L2.2) -/

/-- L2.1: the three last rows tell binary32 products from exact ones. -/
theorem test_dutyToCompare_rounding :
    ([(0x3ECCCCCD, 2000), (0x3E800000, 1000), (0x3DCCCCCD, 1000), (0x3F000000, 5),
      (0x3F000000, 3), (0x3F000000, 1), (0x3E99999A, 3), (0x3EAAAAAB, 3), (0x3F19999A, 999),
      (0x3F7FFFFF, 65535), (0x3E9D9168, 2000), (0x3E4BC35D, 12345), (0x3F0B680B, 65535)]
      : List (Float32Bits × U16)).map (fun r => dutyToCompare r.1 r.2) =
    [800, 250, 100, 3, 2, 1, 1, 1, 599, 65535, 616, 2457, 35688] := by decide +kernel

/-- L2.1: the ends of the range, and everything Clamp01 changes. -/
theorem test_dutyToCompare_clamped :
    ([(0x3F800000, 65535), (0x00000001, 65535), (0x7FC00000, 1000), (0xBE4CCCCD, 1000),
      (0x80000000, 1000), (0x3FC00000, 1000), (0x7F800000, 1000), (0x40000000, 2000),
      (0x3F000000, 0)]
      : List (Float32Bits × U16)).map (fun r => dutyToCompare r.1 r.2) =
    [65535, 0, 0, 0, 0, 1000, 1000, 2000, 0] := by decide +kernel

/-- L2.2 -/
theorem test_clamp01 :
    ([0x3ECCCCCD, 0x7FC00000, 0xFFC00000, 0x7F800001, 0x80000000, 0xBF800000, 0xFF800000,
      0x7F800000, 0x40000000, 0x3F800000, 0x3F7FFFFF, 1]
      : List Float32Bits).map clamp01 =
    [0x3ECCCCCD, 0, 0, 0, 0, 0, 0, 0x3F800000, 0x3F800000, 0x3F800000, 0x3F7FFFFF, 1] := by decide +kernel

/-! ## Commands -/

/-- L2.8 -/
theorem test_nop : (afterWord 0 block).response = some ⟨true, 0⟩ := by decide

/-- L2.2, and L2.5's duty latency: no compare moves. -/
theorem test_setDuty :
    let t := afterWord 0x0100000040000000 block
    t.duty = 0x3F800000 ∧ t.dutyValid = true ∧ t.cmp = ⟨0, 0, 0⟩ := by decide

/-- L2.3 -/
theorem test_setPeriod :
    (afterWord 0x020007D000000000 { block with cmp := ⟨1, 2, 3⟩ }).period = 2000 ∧
    (afterWord 0x020007D000000000 { block with cmp := ⟨1, 2, 3⟩ }).cmp = ⟨1, 2, 3⟩ := by decide

/-- L2.3 -/
theorem test_enable :
    (afterWord 0x0300000100000000 block).run = true ∧
    (afterWord 0x0300000000000000 { block with run := true }).run = false := by decide

/-- L2.5, all six rows. -/
theorem test_setStep_rows :
    ([0x0400000000000000, 0x0400000100000000, 0x0400000200000000, 0x0400000300000000,
      0x0400000400000000, 0x0400000500000000] : List Nat).map
        (fun w => ((afterWord w ready).cmp, (afterWord w ready).en)) =
    [(⟨250, 1000, 0⟩, ⟨true, false, false⟩), (⟨0, 1000, 250⟩, ⟨false, false, true⟩),
     (⟨1000, 0, 250⟩, ⟨false, false, true⟩), (⟨1000, 250, 0⟩, ⟨false, true, false⟩),
     (⟨0, 250, 1000⟩, ⟨false, true, false⟩), (⟨250, 0, 1000⟩, ⟨true, false, false⟩)] := by
  decide +kernel

/-- L1.9, P4: the halt, with the outputs as they were. -/
theorem test_setStep_out_of_range :
    let t := afterWord 0x0400000600000000 { ready with run := true, cmp := ⟨400, 1000, 0⟩ }
    t.halted = true ∧ t.haltCause = .invalidStep ∧ t.haltInfo = 6 ∧ t.run = false ∧
    t.cmp = ⟨400, 1000, 0⟩ ∧ t.response = some ⟨false, 1⟩ := by decide

/-- L1.2 -/
theorem test_advanceFwd :
    (after .advanceFwd block).stepIndex = 1 ∧
    (after .advanceFwd { block with stepIndex := 5 }).stepIndex = 0 := by decide

/-- L1.2 -/
theorem test_advanceBwd :
    (after .advanceBwd block).stepIndex = 5 ∧
    (after .advanceBwd { block with stepIndex := 3 }).stepIndex = 2 := by decide

/-- P5, and 45_clock_step.md rule R225 at 0. -/
theorem test_setCommPeriod :
    (afterWord 0x0700000000000130 block).commPeriod = 304 ∧
    (afterWord 0x0700000000000000 block).commPeriod = 1 := by decide

/-- L2.3, from PERIOD = 2000. -/
theorem test_pwmSetDuty :
    (afterWord 0x0801000040000000 { block with period := 2000 }).cmp = ⟨0, 2000, 0⟩ := by decide +kernel

/-- L2.3 -/
theorem test_pwmSetDuty_no_channel :
    let t := afterWord 0x08FF00003ECCCCCD block
    t.haltCause = .invalidChannel ∧ t.haltInfo = 0xFF ∧ t.response = some ⟨false, 2⟩ := by decide

/-- L2.4 -/
theorem test_pullPhase :
    (afterWord 0x0902000100000000 { block with en := ⟨true, false, false⟩ }).en =
      ⟨true, false, true⟩ := by decide

/-- L2.4 -/
theorem test_pullPhase_no_phase :
    let t := afterWord 0x0903000100000000 block
    t.haltCause = .invalidPhase ∧ t.haltInfo = 3 ∧ t.response = some ⟨false, 3⟩ := by decide

/-- P3 -/
theorem test_readNeutral :
    (after .readNeutral { block with neutral := 200, neutralValid := true }).response =
      some ⟨true, 200⟩ := by decide

/-- L2.8 and P8 -/
theorem test_readErrcnt :
    (afterWord 0x1102000000000000 { block with ovrCnt := 1, teCnt := 7 }).response =
      some ⟨true, 1⟩ ∧
    (afterWord 0x1103000000000000 block).haltInfo = 0x11030000 := by decide

/-- STATUS: L2.8 and P4 step 8. -/
theorem test_readReg_status :
    (afterWord 0x1200000000000000 block).response = some ⟨true, 0x00000400⟩ ∧
    (afterWord 0x1200000000000000
      { stopped with ctIf := true, en := ⟨true, false, false⟩ }).response =
      some ⟨true, 0x00011416⟩ := by decide

/-- SENSE_POS: P6 without realignment. -/
theorem test_readReg_sensePos :
    (afterWord 0x1210000000000000
      { block with dmaIdx := 2, sampleValid := ⟨true, true, true⟩ }).response =
      some ⟨true, 0x000000E2⟩ ∧
    (afterWord 0x1211000000000000 block).haltInfo = 0x12110000 := by decide

/-- L2.9: refused, and no second halt; a read executes. -/
theorem test_halted_words :
    (∀ w ∈ [0x010000003F000000, 0x0400000000000000, 0x0300000100000000, 0, 0x0A00000000000000,
        0x0400000700000000, 0x1103000000000000, 0x1211000000000000],
      (afterWord w stopped).response = some ⟨false, 0⟩ ∧ (afterWord w stopped).haltInfo = 6) ∧
    (afterWord 0x120F000000000000 stopped).response = some ⟨true, 6⟩ := by decide

/-- L2.8: an unassigned opcode. -/
theorem test_illegal_word :
    let t := afterWord 0x0F00000000000000 { block with run := true }
    t.halted = true ∧ t.haltCause = .illegalCommand ∧ t.haltInfo = 0x0F000000 ∧ t.run = false ∧
    t.response = some ⟨false, 4⟩ := by decide

/-- L1.4: the order of the roles. -/
theorem test_role_order :
    (afterWord 0x0400000300000000 ready).hist =
      [.applyRole 2 .floating, .applyRole 0 .neutral, .applyRole 1 .line, .setStep 3] := by decide +kernel

/-! ## Events (L2.6, L2.7) -/

theorem test_ctExpire :
    (after .ctExpire block).ctIf = true ∧ (after .ctExpire stopped).ctIf = true := by decide

/-- L2.6: BWD applies step 0 and goes to 5. -/
theorem test_tick_backward :
    let t := after .tick { ready with ctIf := true, dir := .bwd }
    t.stepIndex = 5 ∧ t.ctIf = false ∧ t.cmp = ⟨250, 1000, 0⟩ ∧ t.en = ⟨true, false, false⟩ := by
  decide +kernel

/-- L2.6: the row of STEP = 2, forward. -/
theorem test_tick_forward :
    let t := after .tick { ready with ctIf := true, stepIndex := 2 }
    t.stepIndex = 3 ∧ t.cmp = ⟨1000, 0, 250⟩ ∧ t.en = ⟨false, false, true⟩ := by decide +kernel

theorem test_pwmTrigger :
    (after .pwmTrigger { block with run := true }).adcBusy = true ∧
    (after .pwmTrigger (scanning 1 0)).adcSeq = 1 ∧ after .pwmTrigger block = block := by decide

theorem test_convBeat :
    let t := after (.adcConvBeat 7) (scanning 0 0)
    t.sample.e0 = 7 ∧ t.sampleValid = ⟨true, false, false⟩ ∧ t.eocIf = true ∧ t.tcIf = false ∧
    t.dmaIdx = 1 ∧ t.adcSeq = 1 ∧ t.adcBusy = true := by decide

theorem test_convBeat_last :
    let t := after (.adcConvBeat 9) (scanning 2 2)
    t.sample.e2 = 9 ∧ t.tcIf = true ∧ t.dmaIdx = 0 ∧ t.adcSeq = 0 ∧ t.adcBusy = false := by decide

theorem test_convDrop :
    let t := after .adcConvDrop (scanning 1 1)
    t.ovrIf = true ∧ t.eocIf = true ∧ t.adcSeq = 2 ∧ t.dmaIdx = 1 ∧
    t.sampleValid = ⟨false, false, false⟩ := by decide

theorem test_convDrop_realigned :
    (after .adcConvDrop { scanning 1 1 with ovrRealign := true }).dmaIdx = 2 := by decide

theorem test_dmaTe :
    (after (.dmaTe false) block).dmaActive = true ∧ (after (.dmaTe false) block).teIf = true ∧
    (after (.dmaTe true) block).dmaActive = false := by decide

theorem test_dmaDme :
    (after (.dmaDme true) block).dmaActive = false ∧ (after (.dmaDme true) block).dmeIf = true ∧
    (after (.dmaDme true) block).teIf = false := by decide

theorem test_tcBegin :
    (after .tcBegin sampled).tch = .read 0 ∧ (after .tcBegin sampled).tcIf = false := by decide

/-- P3, step 8 and step 9. -/
theorem test_tcRead :
    (after .tcRead { sampled with tch := .read 1, acc := 100 }).acc = 300 ∧
    (after .tcRead { sampled with tch := .read 2, acc := 300 }).neutral = 200 := by decide

/-- L2.7: the sums that would wrap 16 bits. -/
theorem test_neutralOf :
    neutralOf 2 = 0 ∧ neutralOf 5 = 1 ∧ neutralOf 196605 = 65535 ∧ neutralOf 196604 = 65534 ∧
    neutralOf 4095 = 1365 := by decide

theorem test_errHandle :
    let t := after .errHandle { block with teIf := true, dmeIf := true, teCnt := 4 }
    t.teCnt = 5 ∧ t.dmeCnt = 1 ∧ t.teIf = false ∧ t.dmeIf = false := by decide

theorem test_errHandle_wraps :
    (after .errHandle { block with teIf := true, teCnt := 0xFFFFFFFF }).teCnt = 0 := by decide

theorem test_adcStatusHandle :
    let t := after .adcStatusHandle { block with ovrIf := true, eocIf := true }
    t.ovrCnt = 1 ∧ t.ovrIf = false ∧ t.eocIf = false ∧
    (after .adcStatusHandle { block with eocIf := true }).ovrCnt = 0 := by decide

/-- L2.10 -/
theorem test_reset :
    let t := after (.reset 1234 500 .bwd) { stopped with teCnt := 3, ctIf := true }
    t.period = 1234 ∧ t.commPeriod = 500 ∧ t.halted = false ∧ t.dutyValid = false ∧
    t.teCnt = 0 ∧ t.ctIf = false ∧ t.dmaActive = true ∧ t.hist = [] ∧
    statusView t = 0x00000408 := by decide

/-- L2.7: while HALTED the hardware goes on and the handlers do not. -/
theorem test_halted_events :
    (after (.adcConvBeat 5) { scanning 1 1 with run := false, halted := true }).sample.e1 = 5 ∧
    (after .tcBegin { sampled with halted := true }).tch = .idle := by decide

/-- P7: HOST is held while the handler is part-way. -/
theorem test_host_held :
    (afterWord 0x1000000000000000 { sampled with tch := .read 1 }).response = none := by decide

/-! ## Witnesses: a state and operands that meet all the hypotheses of a statement -/

theorem witness_EncodedCommandDecodesToItself : (Instr.pwmSetDuty 255 0x7FC00000).isCommand = true := by
  decide
theorem witness_DecodedCommandHasItsWord :
    decodeCommand 0x09FF000100000000 = .ok (.pullPhase 255 true) := by decide
theorem witness_EncodedEventDecodesToItself : (Instr.reset 65535 1 .bwd).isCommand = false := by decide

/-- One pattern for each clause: a NaN, -0.0, +0.0, 1.0 and +inf, the least and the greatest below 1.0. -/
theorem witness_ClampZeroOneCases :
    ((0x7F800001#32).extractLsb' 23 8 = 0xFF ∧ (0x7F800001#32).extractLsb' 0 23 ≠ 0) ∧
    (0x80000000#32).msb = true ∧ 0x3F800000 ≤ (0x3F800000#32).toNat ∧
    (0x7F800000#32).toNat ≤ 0x7F800000 ∧ 0 < (1#32).toNat ∧ (0x3F7FFFFF#32).toNat < 0x3F800000 := by
  decide
theorem witness_ProductIsNearestBinary32 :
    (0x3F800000 : Float32Bits).toNat ≤ oneMagnitude ∧ 2 ^ 24 - 1 < 2 ^ 24 ∧ 0 < infinityMagnitude := by
  decide
theorem witness_DutyToCompareIsMonotone :
    (0x3F7FFFFF : Float32Bits).toNat ≤ (0x3F800000 : Float32Bits).toNat ∧
    (0x3F800000 : Float32Bits).toNat ≤ oneMagnitude := by decide
theorem witness_DutyToCompareWithinRounding : (0x3F0B680B : Float32Bits).toNat ≤ oneMagnitude := by decide

/-- The hypothesis of every command statement that asks for `Ready` alone. -/
theorem witness_NopCompletes :
    block.Ready ∧ stopped.tch = .idle ∧ stopped.halted = true ∧ (1 : Command).extractLsb' 56 8 = 0 := by decide
theorem witness_SetDutyCompletes : ready.Ready := by decide
theorem witness_SetPeriodCompletes : block.Ready := by decide
theorem witness_EnableCompletes : block.Ready := by decide
theorem witness_SetStepAppliesTheStep :
    ready.Ready ∧ ready.dutyValid = true ∧ block.Ready ∧ block.dutyValid = false := by decide
theorem witness_SetStepOutOfRangeHalts :
    ready.Ready ∧ 6 ≤ (6 : U16).toNat ∧ 6 ≤ (65535 : U16).toNat := by decide
theorem witness_StepCounterCommandsComplete : { block with stepIndex := 5 }.Ready := by decide
theorem witness_SetCommPeriodCompletes : block.Ready := by decide
theorem witness_PwmSetDutyWritesOneCompare :
    ready.Ready ∧ 3 ≤ (3 : U8).toNat ∧ 3 ≤ (255 : U8).toNat := by decide
theorem witness_PullPhaseWritesOneLine :
    ready.Ready ∧ 3 ≤ (3 : U8).toNat ∧ 3 ≤ (255 : U8).toNat := by decide
theorem witness_ReadNeutralCompletes :
    { stopped with neutral := 200, neutralValid := true }.tch = .idle ∧ block.tch = .idle ∧
    block.neutralValid = false := by decide
theorem witness_ReadErrcntAnswersTheCounter :
    stopped.tch = .idle ∧ (2, stopped.ovrCnt) ∈ errorTable stopped ∧ 3 ≤ (3 : U8).toNat ∧
    stopped.halted = true ∧ block.tch = .idle ∧ block.halted = false := by decide
theorem witness_ReadRegAnswersTheRegister :
    sampled.tch = .idle ∧ (0x00, .status, statusView sampled, true) ∈ readTable sampled ∧
    (0x02, .duty, 0x3E800000, true) ∈ readTable sampled ∧
    (0x0B, .sample 2, 300, true) ∈ readTable sampled ∧
    (0x10, .sensePos, sensePosView sampled, true) ∈ readTable sampled := by decide
theorem witness_ReadRegReservedNumberIsIllegal :
    block.tch = .idle ∧ 0x11 ≤ (0x11 : U8).toNat ∧ 0x11 ≤ (0xFF : U8).toNat ∧
    block.halted = false ∧ stopped.tch = .idle ∧ stopped.halted = true := by decide
/-- One state for each clause. -/
theorem witness_UnwrittenReadsAreDraws :
    { block with ctIf := true }.adcBits ≤ 16 ∧ { block with ctIf := true }.dutyValid = false ∧
    { block with ctIf := true }.Ready ∧ { block with ctIf := true }.ctIf = true ∧
    block.neutralValid = false ∧ block.sampleValid.get 2 = false ∧ block.tch = .idle := by decide
theorem witness_StatusAndSensePosLayout :
    (0, true) ∈ statusTable { block with run := true } ∧
    (18, true) ∈ statusTable { block with en := ⟨false, false, true⟩ } := by decide
theorem witness_TickCompletes :
    { ready with ctIf := true }.halted = false ∧ { ready with ctIf := true }.ctIf = true ∧
    { ready with ctIf := true }.dutyValid = true ∧ { block with ctIf := true }.halted = false ∧
    { block with ctIf := true }.dutyValid = false := by decide
theorem witness_PwmTriggerStartsAScan :
    { block with run := true }.run = true ∧ { block with run := true }.adcBusy = false ∧
    (scanning 2 2).run = true ∧ (scanning 2 2).adcBusy = true := by decide
theorem witness_ConvBeatCompletes :
    (scanning 2 2).adcBusy = true ∧ (scanning 2 2).dmaActive = true ∧
    (4095 : U16).toNat < 2 ^ (scanning 2 2).adcBits := by decide
theorem witness_ConvDropCompletes : (scanning 2 2).adcBusy = true := by decide
theorem witness_DmaErrorsComplete : block.dmaActive = true := by decide
theorem witness_TcBeginCompletes :
    sampled.halted = false ∧ sampled.tch = .idle ∧ sampled.tcIf = true := by decide
theorem witness_TcReadCompletes :
    { sampled with tch := .read 1 }.halted = false ∧ { sampled with tch := .read 1 }.adcBits ≤ 16 ∧
    { sampled with tch := .read 1 }.sampleValid.get 1 = true ∧ (1 : Phase) ≠ 2 ∧
    { block with tch := .read 2 }.halted = false ∧
    { block with tch := .read 2 }.sampleValid.get 2 = false := by decide
theorem witness_NeutralIsTheTruncatedMean :
    sampled.halted = false ∧ sampled.tch = .idle ∧ sampled.tcIf = true ∧
    sampled.sampleValid = ⟨true, true, true⟩ := by decide
theorem witness_ErrHandleCompletes :
    { block with dmeIf := true }.halted = false ∧
    ({ block with dmeIf := true }.teIf = true ∨ { block with dmeIf := true }.dmeIf = true) := by decide
theorem witness_AdcStatusHandleCompletes :
    { block with ovrIf := true }.halted = false ∧
    ({ block with ovrIf := true }.ovrIf = true ∨ { block with ovrIf := true }.eocIf = true) := by decide
theorem witness_ResetCompletes : (1 : U32) ≠ 0 := by decide
theorem witness_HaltedRefusesWrites :
    stopped.halted = true ∧ stopped.tch = .idle ∧ (Instr.setStep 7).isCommand = true ∧
    (Instr.setStep 7).isRead = false := by decide
theorem witness_IllegalWordHalts :
    let s := { block with turns := [.host], hostWords := [0x0000000000000001] }
    s.turns = [.host] ∧ s.hostWords = [0x0000000000000001] ∧ s.tch = .idle ∧ s.halted = false ∧
    decodeCommand 0x0000000000000001 = .error (.reservedFieldNonzero 0) ∧
    decodeCommand 0x1300000000000000 = .error (.unassignedOpcode 0x13) ∧
    stopped.tch = .idle ∧ stopped.halted = true := by decide
theorem witness_HaltStopsSoftware :
    stopped.halted = true ∧ Instr.tick.isHandler = true ∧ Instr.adcStatusHandle.isHandler = true ∧
    stopped.run = false := by decide
theorem witness_HaltIsLeftOnlyByReset :
    ∃ t, stopped.halted = true ∧ ¬ Instr.ctExpire.IsReset ∧ exec .ctExpire stopped = .next t :=
  ⟨_, rfl, (by rintro ⟨p, us, d, h⟩; cases h), rfl⟩
theorem witness_HostIsHeldWhileTheHandlerRuns :
    let s := { sampled with tch := .read 0, turns := [.host] }
    s.tch ≠ .idle ∧ Instr.readNeutral.isCommand = true ∧ s.turns = [.host] := by decide
/-- Each disjunct of each clause; `ready` is not HALTED. -/
theorem witness_DisabledStepsChangeNothing :
    stopped.halted = true ∧ ready.halted = false ∧ ready.ctIf = false ∧ ready.run = false ∧
    ready.adcBusy = false ∧ { scanning 0 0 with dmaActive := false }.dmaActive = false ∧
    2 ^ (scanning 0 0).adcBits ≤ (4096 : U16).toNat ∧
    { sampled with tch := .read 2 }.tch ≠ .idle ∧ ready.tcIf = false ∧ ready.tch = .idle ∧
    (ready.teIf = false ∧ ready.dmeIf = false) ∧ (ready.ovrIf = false ∧ ready.eocIf = false) := by
  decide
theorem witness_StepRunsTheDecodedInstruction :
    let s := { block with turns := [.host], hostWords := [0x0400000600000000] }
    s.turns = [.host] ∧ s.hostWords = [0x0400000600000000] ∧ s.tch = .idle ∧
    decodeCommand 0x0400000600000000 = .ok (.setStep 6) ∧
    { block with turns := [.agent .ctExpire] }.turns = [.agent .ctExpire] := by decide
theorem witness_FetchWordRunsTheRow :
    block.tch = .idle ∧ decodeTableWord 64 0x0600000000000000 = some .advanceBwd ∧
    decodeTableWord 8 0x8A = some .adcStatusHandle := by decide

/-! ### Invariants, from a state in the middle of a scan -/

/-- Channel 0's sample has been written, channel 1's was dropped, and channel 2's comes next. -/
def shifted : State :=
  { scanning 2 1 with
    sample := ⟨10, 0, 0⟩
    sampleValid := ⟨true, false, false⟩
    en := ⟨true, false, false⟩
    hist := [.setStep 0, .ctExpire, .convBeat 0 0 10, .convDrop 1]
    turns := [.agent (.adcConvBeat 30)] }

theorem beatAfter_shifted {before : List HistRecord} {c i : Phase}
    (h : BeatAfter shifted.hist before c i) : before = [.setStep 0, .ctExpire] ∧ c = 0 ∧ i = 0 := by
  obtain ⟨v, rest, h⟩ := h
  match before with
  | [] => simp [shifted] at h
  | [_] => simp [shifted] at h
  | [a, b] => simp [shifted] at h; exact ⟨by rw [← h.1, ← h.2.1]; rfl, h.2.2.1.1.symm, h.2.2.1.2.1.symm⟩
  | [_, _, _] => simp [shifted] at h
  | _ :: _ :: _ :: _ :: _ => simp [shifted] at h

theorem witness_LegalStatesStayLegal : ∃ t, shifted.Legal ∧ step shifted = .next t :=
  ⟨_, ⟨by decide, by decide, by decide, by decide, by decide, by
    exact ⟨fun _ => rfl, fun k h => by cases h⟩, by decide⟩, rfl⟩
theorem witness_TicksNeverExceedExpiries :
    ∃ t, shifted.TicksPaidFor ∧ step shifted = .next t := ⟨_, by decide, rfl⟩
theorem witness_BufferWordsKeepTheirChannel :
    ∃ t, { shifted with ovrRealign := true, dmaIdx := 2 }.WordsKeepChannel ∧
      step { shifted with ovrRealign := true, dmaIdx := 2 } = .next t :=
  ⟨_, ⟨by decide, fun _ => ⟨rfl, fun before c i h => by
    obtain ⟨rfl, rfl, rfl⟩ := beatAfter_shifted h
    rfl⟩⟩, rfl⟩
theorem witness_DropsShiftTheMapping : ∃ t, shifted.WordsShifted ∧ step shifted = .next t :=
  ⟨_, ⟨by decide, fun _ => ⟨rfl, fun before c i h => by
    obtain ⟨rfl, rfl, rfl⟩ := beatAfter_shifted h
    rfl⟩⟩, rfl⟩
theorem witness_OneLineUntilPullPhase : ∃ t, shifted.OneLine ∧ step shifted = .next t :=
  ⟨_, by decide, rfl⟩

theorem witness_OutputsHaveOnlyTheirWriters :
    ∃ t, exec (.enable true) block = .next t ∧ t.run ≠ block.run := ⟨_, rfl, by decide⟩
theorem witness_OnlyTheDmaWritesTheBuffer :
    ∃ t, ¬ Instr.adcConvDrop.IsReset ∧ exec .adcConvDrop { scanning 0 0 with dmaActive := false } = .next t ∧
      (∀ v, Instr.adcConvDrop ≠ .adcConvBeat v) ∧ { scanning 0 0 with dmaActive := false }.dmaActive = false :=
  ⟨_, (by rintro ⟨p, us, d, h⟩; cases h), rfl, (by intro v h; cases h), rfl⟩
theorem witness_SenseNeverReachesCommutation :
    (∃ t, Instr.tcBegin.isSense = true ∧ exec .tcBegin sampled = .next t) ∧
    (∃ t t', Instr.tick.isSense = false ∧
      SameCommutation { sampled with ctIf := true } { ready with ctIf := true } ∧
      hostEnabled { sampled with ctIf := true } = hostEnabled { ready with ctIf := true } ∧
      { sampled with ctIf := true }.drawCount = { ready with ctIf := true }.drawCount ∧
      exec .tick { sampled with ctIf := true } = .next t ∧
      exec .tick { ready with ctIf := true } = .next t') :=
  ⟨⟨_, rfl, rfl⟩, ⟨_, _, rfl, by decide, rfl, rfl, rfl, rfl⟩⟩
/-- A handler that reads no sample with DUTY unwritten; TC_READ with only DUTY written; TC_READ with only
its word written. -/
theorem witness_TickCommutesWithTheHandlers :
    let a := { block with ctIf := true, teIf := true }
    let b := { ready with ctIf := true, tch := .read 2 }
    let c := { block with ctIf := true, tch := .read 0, sampleValid := ⟨true, false, false⟩ }
    (enabled .tick a = true ∧ enabled .errHandle a = true ∧ Instr.errHandle ≠ .tcRead) ∧
    (enabled .tick b = true ∧ enabled .tcRead b = true ∧ b.dutyValid = true) ∧
    (enabled .tick c = true ∧ enabled .tcRead c = true ∧ c.dutyValid = false ∧
      c.tch = .read 0 ∧ c.sampleValid.get 0 = true) := by decide
theorem witness_RolesNeverOverlap :
    (0 : Phase) ≠ phaseWith (roleTable 3) .line ∧ enableCount { block with en := ⟨true, false, false⟩ }.en ≤ 1 := by
  decide

/-! ### A fair run: an expiry and its service, again and again -/

/-- The states of the run; it starts with an expiry pending. -/
def pulse : Nat → State
  | 0 => { ready with ctIf := true, turns := [], hostWords := [0] }
  | n + 1 =>
    if n % 2 = 0 then serviceTick (pulse n)
    else record .ctExpire { pulse n with ctIf := true }

def pulseRun : Run :=
  ⟨pulse, fun n => .agent (if n % 2 = 0 then .tick else .ctExpire), fun _ => 0⟩

theorem pulse_quiet (n : Nat) :
    (pulse n).halted = false ∧ (pulse n).run = false ∧ (pulse n).adcBusy = false ∧
    (pulse n).tcIf = false ∧ (pulse n).teIf = false ∧ (pulse n).dmeIf = false ∧
    (pulse n).ovrIf = false ∧ (pulse n).eocIf = false ∧ (pulse n).tch = .idle ∧
    (pulse n).turns = [] ∧ (pulse n).hostWords = [0] ∧
    (pulse n).ctIf = decide (n % 2 = 0) := by
  induction n with
  | zero => decide
  | succ n ih =>
    unfold pulse
    split
    · rename_i h
      obtain ⟨c, d, e⟩ := doSetStep_change (pulse n).stepIndex (pulse n)
      have h' : ¬ (n + 1) % 2 = 0 := by omega
      simp [serviceTick, record, e, ih, h']
    · rename_i h
      have h' : (n + 1) % 2 = 0 := by omega
      simp [record, ih, h']

theorem pulseRun_input (n : Nat) :
    popTurn (pulseRun.input n) = pulse n ∧ nextTurn (pulseRun.input n) = pulseRun.turn n := by
  obtain ⟨-, -, -, -, -, -, -, -, -, h1, h2, -⟩ := pulse_quiet n
  refine ⟨?_, rfl⟩
  show ({ pulse n with turns := [], hostWords := [0] } : State) = pulse n
  rw [← h1, ← h2]

theorem pulseRun_steps : pulseRun.Steps := by
  intro n
  obtain ⟨h1, -, -, -, -, -, -, -, -, -, -, h2⟩ := pulse_quiet n
  unfold step
  rw [(pulseRun_input n).1, (pulseRun_input n).2]
  show exec (if n % 2 = 0 then .tick else .ctExpire) (pulse n) = .next (pulse (n + 1))
  rw [pulse]
  by_cases h : n % 2 = 0
  · have he : enabled .tick (pulse n) = true := by simp [enabled, tickEnabled, h1, h2, h]
    simp only [h, if_true, exec, execTick, whenEnabled_true he]
  · simp only [h, if_false, exec, execCtExpire, enabled, whenEnabled, if_true]

theorem pulseRun_takes (n : Nat) :
    pulseRun.Takes (2 * n) .tick ∧ pulseRun.Takes (2 * n + 1) .ctExpire := by
  obtain ⟨h1, -, -, -, -, -, -, -, -, -, -, h2⟩ := pulse_quiet (2 * n)
  have h3 : 2 * n % 2 = 0 := by omega
  refine ⟨⟨?_, ?_⟩, ?_, rfl⟩
  · rw [nextInstr, (pulseRun_input _).2]
    simp [pulseRun, h3]
  · simp [enabled, tickEnabled, pulseRun, h1, h2, h3]
  · rw [nextInstr, (pulseRun_input _).2]
    simp [pulseRun]

theorem pulseRun_fair : pulseRun.Fair where
  expiry n := ⟨2 * n + 1, by omega, .inr (pulseRun_takes n).2⟩
  handler i hi n := by
    obtain ⟨-, -, -, h1, h2, h3, h4, h5, h6, -, -, -⟩ := pulse_quiet (2 * n)
    refine ⟨2 * n, by omega, ?_⟩
    simp only [handlerSteps, List.mem_cons, List.not_mem_nil, or_false] at hi
    rcases hi with rfl | rfl | rfl | rfl | rfl
    · exact .inr (pulseRun_takes n).1
    all_goals
      exact .inl (by simp [enabled, tcBeginEnabled, tcReadEnabled, errHandleEnabled,
        adcStatusHandleEnabled, pulseRun, h1, h2, h3, h4, h5, h6])
  trigger n := ⟨n, Nat.le_refl n, .inl (pulse_quiet n).2.1⟩
  conversion n := ⟨n, Nat.le_refl n, .inl (pulse_quiet n).2.2.1⟩

theorem witness_FairRunsServiceTheExpiry :
    pulseRun.Steps ∧ pulseRun.Fair ∧ (pulseRun.states 0).ctIf = true :=
  ⟨pulseRun_steps, pulseRun_fair, rfl⟩

end Sys2Proof.Tests
end

section
/-! The state of 10_state.md: its legal ranges and the enable line that every step keeps, the bit layouts
of its two views, and the reads of registers that nothing has written. -/

namespace Sys2Proof.Machine

/-! ## Invariants of the step -/

/-- A property that ignores the model's own inputs, and that every instruction and the rejection of an
undecodable word keep, is kept by every step. -/
theorem step_keeps {P : State → Prop} (input : ∀ {s u}, SameBlock s u → P s → P u)
    (change : ∀ {i s t}, Change i s t → P s → P t)
    (refuse : ∀ {s} w, P s → P (refuseWord w s))
    (halt : ∀ {s} info, s.Ready → P s → P (haltWith .illegalCommand info s))
    {s t : State} (hs : P s) (h : step s = .next t) : P t := by
  obtain ⟨u, hu, rfl | ⟨i, hc⟩ | ⟨w, hidle, rfl⟩⟩ := step_change h
  · exact input hu hs
  · exact change hc (input hu hs)
  · cases hh : u.halted
    · rw [rejectWord_running hh]; exact halt _ ⟨hidle, hh⟩ (input hu hs)
    · rw [rejectWord_halted hh]; exact refuse w (input hu hs)

/-! ## Ranges of the values that steps write -/

/-- Clamp01 gives a pattern of [+0.0, 1.0] (41_pwm_driver.md rule R130). -/
theorem clamp01_toNat_le (f : Float32Bits) : (clamp01 f).toNat ≤ oneMagnitude := by
  unfold clamp01
  split
  · decide
  split
  · decide
  split
  · decide
  next hsign hone =>
    have hmsb : f.msb = false := by
      simp only [Bool.or_eq_true, not_or, Bool.not_eq_true] at hsign
      exact hsign.1
    have hlt : f.toNat < 2 ^ 31 := by simpa using BitVec.toNat_lt_of_msb_false hmsb
    rw [magnitude, Nat.mod_eq_of_lt hlt] at hone
    exact (Nat.not_le.1 hone).le

theorem clampCommPeriod_ne_zero (us : U32) : clampCommPeriod us ≠ 0 := by
  unfold clampCommPeriod
  split
  · decide
  · assumption

theorem nextPhase_val {p : Phase} (h : p ≠ 2) : (nextPhase p).val = p.val + 1 := by
  revert p; decide

theorem readSample_lt {s : State} (hp : s.ParametersLegal) (hs : s.SamplesLegal) (k : Phase) :
    (readSample k s).1.toNat < 2 ^ s.adcBits := by
  cases hk : s.sampleValid.get k
  · obtain ⟨v, hv, e⟩ := readSample_unwritten hk hp.2
    rwa [e]
  · rw [readSample_written hk]
    exact hs.1 k hk

/-- The sum after the read of word `k` is at most that of `k + 1` samples (43_sense.md rule R174). -/
theorem acc_add_sample_le {s : State} (hs : s.Legal) {k : Phase} (hk : s.tch = .read k) :
    (s.acc + (readSample k s).1.setWidth 18).toNat ≤ (k.val + 1) * (2 ^ s.adcBits - 1) := by
  have hacc := hs.acc.2 k hk
  have hsample : (readSample k s).1.toNat ≤ 2 ^ s.adcBits - 1 :=
    Nat.le_sub_one_of_lt (readSample_lt hs.parameters hs.samples k)
  rw [BitVec.toNat_add, Nat.add_one_mul]
  refine (Nat.mod_le _ _).trans (Nat.add_le_add hacc ?_)
  simpa using (Nat.mod_le _ _).trans hsample

/-- The mean of three samples is below the bound of the samples (43_sense.md rule R175). -/
theorem neutralOf_lt {sum : BitVec 18} {b : Nat} (h : sum.toNat ≤ 3 * (2 ^ b - 1)) :
    (neutralOf sum).toNat < 2 ^ b := by
  have hpos := Nat.two_pow_pos b
  calc (neutralOf sum).toNat ≤ sum.toNat / 3 := by
        rw [neutralOf, BitVec.toNat_ofNat]; exact Nat.mod_le _ _
    _ < 2 ^ b := by omega

/-! ## The reset state is legal -/

/-- The reset values of 10_state.md rule R59 are legal for every legal choice of the parameters. -/
theorem constructed_legal (p : U16) {us : U32} (d : Direction) {bits : Nat} (realign : Bool)
    (hus : us ≠ 0) (hbits : 1 ≤ bits ∧ bits ≤ 16) :
    (State.constructed p us d bits realign).Legal where
  parameters := hbits
  duty := nofun
  commPeriod := hus
  scan _ := rfl
  samples := ⟨fun i => by match i with | 0 | 1 | 2 => exact nofun, nofun⟩
  acc := ⟨fun _ => rfl, nofun⟩
  halt := ⟨fun _ => ⟨rfl, rfl⟩, nofun⟩

/-- Legality does not speak of the model's own inputs. -/
theorem SameBlock.legal {s u : State} (h : SameBlock s u) (hs : s.Legal) : u.Legal := by
  unfold SameBlock at h
  rw [h]
  exact ⟨hs.parameters, hs.duty, hs.commPeriod, hs.scan, hs.samples, hs.acc, hs.halt⟩

theorem resetBlock_legal (p : U16) (us : U32) (d : Direction) {s : State} (hs : s.Legal) :
    (resetBlock p us d s).Legal :=
  have hc := constructed_legal p d s.ovrRealign (clampCommPeriod_ne_zero us) hs.parameters
  ⟨hc.parameters, hc.duty, hc.commPeriod, hc.scan, hc.samples, hc.acc, hc.halt⟩

/-! ## Every instruction keeps each range of a legal state -/

section
variable {i : Instr} {s t : State} (h : Change i s t) (hs : s.Legal)
include h hs

theorem Change.parametersLegal : t.ParametersLegal := by
  cases h <;> exact hs.parameters

/-- Only SET_DUTY and RESET write DUTY or DUTY_VALID. -/
theorem Change.dutyLegal : t.DutyLegal := by
  cases h with
  | setDuty _ f => exact fun _ => clamp01_toNat_le f
  | reset _ p us d => exact (resetBlock_legal p us d hs).duty
  | _ => exact hs.duty

theorem Change.commPeriodLegal : t.CommPeriodLegal := by
  cases h with
  | setCommPeriod _ us => exact clampCommPeriod_ne_zero us
  | reset _ p us d => exact (resetBlock_legal p us d hs).commPeriod
  | _ => exact hs.commPeriod

/-- A conversion ends a scan only at channel 2, and the channel after it is 0 (43_sense.md rule R162). -/
theorem Change.scanLegal : t.ScanLegal := by
  have hlast : decide (s.adcSeq ≠ 2) = false → nextPhase s.adcSeq = 0 := fun hidle => by
    have hseq : s.adcSeq = 2 := by simpa using hidle
    rw [hseq]; rfl
  cases h with
  | triggerStarts => exact nofun
  | convBeat => exact hlast
  | convDrop => exact hlast
  | reset _ p us d => exact (resetBlock_legal p us d hs).scan
  | _ => exact hs.scan

theorem Change.samplesLegal : t.SamplesLegal := by
  obtain ⟨hwords, hneutral⟩ := hs.samples
  cases h with
  | convBeat _ v _ _ hv =>
    refine ⟨fun k hk => ?_, hneutral⟩
    simp only [Three.get_set] at hk ⊢
    split
    · exact hv
    · next hne => exact hwords k (by simpa [hne] using hk)
  | tcReadLast _ _ _ hread => exact ⟨hwords, fun _ => neutralOf_lt (acc_add_sample_le hs hread)⟩
  | reset _ p us d => exact (resetBlock_legal p us d hs).samples
  | _ => exact ⟨hwords, hneutral⟩

theorem Change.accLegal : t.AccLegal := by
  cases h with
  | tcBegin => exact ⟨nofun, fun _ _ => Nat.zero_le _⟩
  | tcReadOn _ k _ _ hread hne =>
    refine ⟨nofun, fun k' hk' => ?_⟩
    cases hk'
    rw [nextPhase_val hne]
    exact acc_add_sample_le hs hread
  | tcReadLast => exact ⟨fun _ => rfl, nofun⟩
  | reset _ p us d => exact (resetBlock_legal p us d hs).acc
  | _ => exact hs.acc

/-- A halt needs an idle handler and stops the PWM; ENABLE and the handler run only while HALTED = 0. -/
theorem Change.haltLegal : t.HaltLegal := by
  cases h with
  | halts _ _ c _ hidle _ hc => exact ⟨nofun, fun _ => ⟨hc, rfl, hidle⟩⟩
  | enable _ _ hready => exact ⟨hs.halt.1, fun hh => nomatch hready.2.symm.trans hh⟩
  | tcBegin _ hrun => exact ⟨hs.halt.1, fun hh => nomatch hrun.symm.trans hh⟩
  | tcReadOn _ _ _ hrun => exact ⟨hs.halt.1, fun hh => nomatch hrun.symm.trans hh⟩
  | tcReadLast _ _ hrun => exact ⟨hs.halt.1, fun hh => nomatch hrun.symm.trans hh⟩
  | reset _ p us d => exact (resetBlock_legal p us d hs).halt
  | _ => exact hs.halt

theorem Change.legal : t.Legal :=
  ⟨h.parametersLegal hs, h.dutyLegal hs, h.commPeriodLegal hs, h.scanLegal hs, h.samplesLegal hs,
    h.accLegal hs, h.haltLegal hs⟩

end

theorem refuseWord_legal {s : State} (w : Command) (hs : s.Legal) : (refuseWord w s).Legal :=
  ⟨hs.parameters, hs.duty, hs.commPeriod, hs.scan, hs.samples, hs.acc, hs.halt⟩

theorem haltWith_legal {s : State} {c : HaltCause} (hc : c ≠ .none) (info : U32) (hidle : s.tch = .idle)
    (hs : s.Legal) : (haltWith c info s).Legal :=
  ⟨hs.parameters, hs.duty, hs.commPeriod, hs.scan, hs.samples, hs.acc, nofun, fun _ => ⟨hc, rfl, hidle⟩⟩

/-- Settles O49 by `step_keeps`: each range is kept by every instruction, and by the rejection of an
undecodable word. -/
theorem legalStatesStayLegal : Obligations.LegalStatesStayLegal := by
  intro s t hs h
  exact step_keeps SameBlock.legal Change.legal refuseWord_legal
    (fun info hready => haltWith_legal (by decide) info hready.1) hs h

/-! ## One enable line up until PULL_PHASE -/

theorem enableCount_enableRow (k : StepIndex) : enableCount (enableRow k) = 1 := by
  revert k; decide

@[simp] theorem stepAppliedLast_append (hist : List HistRecord) (r : HistRecord) :
    stepAppliedLast (hist ++ [r]) = (r.isStep || (stepAppliedLast hist && !r.isPull)) := by
  simp [stepAppliedLast]

/-- A record that is neither a do_set_step's nor a PULL_PHASE's leaves the claim as it was. -/
theorem oneLine_of_record {s t : State} {r : HistRecord} (hs : s.OneLine) (hen : t.en = s.en)
    (hhist : t.hist = s.hist ++ [r]) (hstep : r.isStep = false) (hpull : r.isPull = false) :
    t.OneLine := by
  simpa [State.OneLine, hen, hhist, hstep, hpull] using hs

theorem oneLine_of_enableRow {t : State} (k : StepIndex) (hen : t.en = enableRow k) : t.OneLine :=
  fun _ => hen ▸ enableCount_enableRow k

theorem Change.oneLine {i : Instr} {s t : State} (h : Change i s t) (hs : s.OneLine) : t.OneLine := by
  cases h with
  | stays => exact hs
  | setStep _ _ k => exact oneLine_of_enableRow k rfl
  | tick => exact oneLine_of_enableRow s.stepIndex rfl
  | pullPhase => intro hlast; simp [HistRecord.isStep, HistRecord.isPull] at hlast
  | reset => exact nofun
  | _ => exact oneLine_of_record hs rfl rfl rfl rfl

theorem SameBlock.oneLine {s u : State} (h : SameBlock s u) (hs : s.OneLine) : u.OneLine := by
  unfold SameBlock at h
  rw [h]
  exact hs

/-- Settles O53 by `step_keeps`: only SET_STEP, TICK, PULL_PHASE and RESET write EN, and each is in the
history. -/
theorem oneLineUntilPullPhase : Obligations.OneLineUntilPullPhase := by
  intro s t hs h
  exact step_keeps (P := State.OneLine) SameBlock.oneLine Change.oneLine
    (fun _ hs => oneLine_of_record hs rfl rfl rfl rfl)
    (fun _ _ hs => oneLine_of_record hs rfl rfl rfl rfl) hs h

/-! ## Reads of state that nothing has written -/

/-- A compare never exceeds the period (41_pwm_driver.md rule R133). -/
theorem dutyToCompare_toNat_le (f : Float32Bits) (per : U16) :
    (dutyToCompare f per).toNat ≤ per.toNat := by
  rw [dutyToCompare, BitVec.toNat_ofNat]
  exact (Nat.mod_le _ _).trans (Nat.min_le_right _ _)

theorem exec_readReg_named {s : State} {sel : U8} {r : Reg} (hr : regOf sel = some r)
    (hidle : s.tch = .idle) : exec (.readReg sel) s =
      .next (record (.readReg r) (respond (readRegister r s).1 (readRegister r s).2)) := by
  simp only [exec, execReadReg, hr, Option.map_some]
  exact hostRead_served hidle

theorem regOf_sample (k : Phase) : regOf (BitVec.ofNat 8 (9 + k.val)) = some (.sample k) := by
  match k with
  | 0 => rfl
  | 1 => rfl
  | 2 => rfl

theorem exec_setStep_ready {s : State} (k : StepIndex) (h : s.Ready) :
    exec (.setStep (BitVec.ofNat 16 k.val)) s =
      .next (respond 0 (record (.setStep (BitVec.ofNat 16 k.val)) (doSetStep k s))) := by
  simp only [exec, execSetStep, hostWrite_ready h, stepOf_step]

theorem exec_tick_enabled {s : State} (hrun : s.halted = false) (hct : s.ctIf = true) :
    exec .tick s = .next (serviceTick s) :=
  whenEnabled_true (by simp [enabled, tickEnabled, hrun, hct]) _ _

theorem doSetStep_drawCount (k : StepIndex) (s : State) :
    (doSetStep k s).drawCount = (readDuty s).2.drawCount := by
  rw [doSetStep_state]

/-- The Line phase is written last, with the one read of DUTY (44_commutation.md rules R193, R194). -/
theorem doSetStep_cmp_line (k : StepIndex) (s : State) :
    (doSetStep k s).cmp.get (phaseWith (roleTable k) .line) =
      dutyToCompare (readDuty s).1 s.period := by
  have hperiod : (readDuty s).2.period = s.period := by rw [readDuty_state]
  simp [doSetStep, applyRole, hperiod]

/-- Settles O25: `readDuty`, `readNeutral` and `readSample` draw from their sets, and the three steps that
read DUTY read it once. -/
theorem unwrittenReadsAreDraws : Obligations.UnwrittenReadsAreDraws := by
  intro s hbits
  refine ⟨fun hduty => ?_, fun hneutral hidle => ?_, fun k hsample hidle => ?_⟩
  · obtain ⟨d, hd, hread⟩ := readDuty_unwritten hduty
    refine ⟨d, hd, dutyToCompare_toNat_le d s.period, fun hidle => ?_, fun hready k => ?_,
      fun hrun hct => ?_⟩
    · rw [exec_readReg_named (r := .duty) rfl hidle, readRegister, hread]; rfl
    · -- `rw` cites each field's law; by `simp` the kernel compares the states by unfolding do_set_step.
      refine ⟨_, exec_setStep_ready k hready, ?_, ?_⟩
      · rw [respond_drawCount, record_drawCount, doSetStep_drawCount, hread, countDraw_drawCount]
      · rw [respond_cmp, record_cmp, doSetStep_cmp_line, hread]
    · refine ⟨_, exec_tick_enabled hrun hct, ?_, ?_⟩
      · simp [serviceTick, doSetStep_drawCount, hread]
      · simp [serviceTick, doSetStep_cmp_line, hread]
  · obtain ⟨v, hread⟩ := readNeutral_unwritten hneutral
    refine ⟨v, ?_⟩
    rw [exec_readReg_named (r := .neutral) rfl hidle, readRegister, hread]; rfl
  · obtain ⟨v, hv, hread⟩ := readSample_unwritten hsample hbits
    refine ⟨v, hv, ?_⟩
    rw [exec_readReg_named (regOf_sample k) hidle, readRegister, hread]; rfl

/-! ## The layouts of the two views -/

/-- A field read back from its own bits. -/
theorem extractLsb'_fieldAt_same {w n : Nat} (v : BitVec w) (h : n + w ≤ 32) :
    (fieldAt n v).extractLsb' n w = v := by
  apply BitVec.eq_of_getLsbD_eq
  intro i hi
  have h32 : n + i < 32 := by omega
  simp [hi, h32]

/-- A field reaches no bits below or above its own. -/
theorem extractLsb'_fieldAt_other {w n start len : Nat} (v : BitVec w)
    (h : start + len ≤ n ∨ n + w ≤ start) : (fieldAt n v).extractLsb' start len = 0#len := by
  apply BitVec.eq_of_getLsbD_eq
  intro i hi
  have houtside : n ≤ start + i → v.getLsbD (start + i - n) = false := fun hn =>
    BitVec.getLsbD_of_ge v _ (by omega)
  simpa [getLsbD_fieldAt, hi] using fun hn (_ : start + i < 32) => houtside hn

theorem extractLsb'_bitAt_other {n start len : Nat} (b : Bool)
    (h : start + len ≤ n ∨ n + 1 ≤ start) : (bitAt n b).extractLsb' start len = 0#len :=
  extractLsb'_fieldAt_other _ h

/-- Row by row: no other field of STATUS reaches the bit of a one-bit field. -/
theorem statusView_table {s : State} {n : Nat} {b : Bool} (h : (n, b) ∈ statusTable s) :
    (statusView s).getLsbD n = b := by
  have htable : ∀ row ∈ statusTable s, (statusView s).getLsbD row.1 = row.2 := by
    simp [statusTable, statusView]
  exact htable (n, b) h

theorem statusView_haltCause (s : State) : (statusView s).extractLsb' 12 4 = s.haltCause.code := by
  simp [statusView, BitVec.extractLsb'_or, extractLsb'_bitAt_other, extractLsb'_fieldAt_same]

theorem statusView_reserved (s : State) : (statusView s).extractLsb' 19 13 = 0 := by
  simp [statusView, BitVec.extractLsb'_or, extractLsb'_bitAt_other, extractLsb'_fieldAt_other]

theorem sensePosView_dmaIdx (s : State) :
    (sensePosView s).extractLsb' 0 2 = BitVec.ofNat 2 s.dmaIdx.val := by
  simp [sensePosView, BitVec.extractLsb'_or, extractLsb'_bitAt_other, extractLsb'_fieldAt_other,
    extractLsb'_fieldAt_same]

theorem sensePosView_adcSeq (s : State) :
    (sensePosView s).extractLsb' 2 2 = BitVec.ofNat 2 s.adcSeq.val := by
  simp [sensePosView, BitVec.extractLsb'_or, extractLsb'_bitAt_other, extractLsb'_fieldAt_other,
    extractLsb'_fieldAt_same]

theorem sensePosView_reserved (s : State) : (sensePosView s).extractLsb' 8 24 = 0 := by
  simp [sensePosView, BitVec.extractLsb'_or, extractLsb'_bitAt_other, extractLsb'_fieldAt_other]

/-- Settles O26: each bit of a view is the bit of the one field that stands there. -/
theorem statusAndSensePosLayout : Obligations.StatusAndSensePosLayout := by
  intro s
  refine ⟨fun n b => statusView_table, statusView_haltCause s, statusView_reserved s,
    sensePosView_dmaIdx s, sensePosView_adcSeq s, ?_, ?_, ?_, ?_, sensePosView_reserved s⟩
  all_goals simp [sensePosView]

/-! ## The invariants at reset -/

theorem initCommPeriodUs_ne_zero : Config.initCommPeriodUs ≠ 0 :=
  clampCommPeriod_ne_zero Config.initCommPeriodRaw

theorem adcBits_range : 1 ≤ Config.adcBits ∧ Config.adcBits ≤ 16 := by
  unfold Config.adcBits
  omega

theorem not_beatAfter_nil {before : List HistRecord} {c i : Phase} : ¬ BeatAfter [] before c i := by
  rintro ⟨v, after, h⟩
  simp at h

/-- Settles O54: the reset state is a constructed one, and its history is empty. -/
theorem invariantsHoldAtReset : Obligations.InvariantsHoldAtReset :=
  ⟨constructed_legal _ _ _ initCommPeriodUs_ne_zero adcBits_range, Nat.le_refl 0,
    ⟨fun _ => rfl, fun _ => ⟨rfl, fun _ _ _ h => (not_beatAfter_nil h).elim⟩⟩,
    ⟨fun _ => rfl, fun _ => ⟨rfl, fun _ _ _ h => (not_beatAfter_nil h).elim⟩⟩, nofun⟩

end Sys2Proof.Machine
end

section
/-! The encoding of 30_encoding.md: commands and events read back from their words, the rows of the opcode
table, and the step that runs what a word decodes to. -/

namespace Sys2Proof

/-! ## A command word by its fields (rules R100 and R101) -/

theorem commandWord_eq_iff {op sel : U8} {imm : U16} {data : U32} {w : Command} :
    commandWord op sel imm data = w ↔
      opField w = op ∧ selField w = sel ∧ immField w = imm ∧ dataField w = data := by
  constructor
  · rintro rfl
    simp
  · rintro ⟨rfl, rfl, rfl, rfl⟩
    exact commandWord_fields w

@[simp] theorem opField_and (v w : Command) : opField (v &&& w) = opField v &&& opField w :=
  BitVec.extractLsb'_and

@[simp] theorem selField_and (v w : Command) : selField (v &&& w) = selField v &&& selField w :=
  BitVec.extractLsb'_and

@[simp] theorem immField_and (v w : Command) : immField (v &&& w) = immField v &&& immField w :=
  BitVec.extractLsb'_and

@[simp] theorem dataField_and (v w : Command) : dataField (v &&& w) = dataField v &&& dataField w :=
  BitVec.extractLsb'_and

/-- A mask and a match value judge each field by itself. -/
theorem and_commandWord_eq_iff {op sel mop msel : U8} {imm mimm : U16} {data mdata : U32}
    {w : Command} :
    w &&& commandWord mop msel mimm mdata = commandWord op sel imm data ↔
      opField w &&& mop = op ∧ selField w &&& msel = sel ∧ immField w &&& mimm = imm ∧
        dataField w &&& mdata = data := by
  rw [eq_comm, commandWord_eq_iff]
  simp

/-! ## A Bool operand in IMM16 (rule R102) -/

theorem immOfBool_immBool {w : Command} (h : immAboveBool w = 0) :
    immOfBool (immBool w) = immField w := by
  have hbit : BitVec.ofBool (immBool w) = (immField w).extractLsb' 0 1 := by
    rw [immBool, ← BitVec.setWidth_one, BitVec.setWidth_eq_extractLsb' (by decide)]
  have habove : 0#15 = (immField w).extractLsb' 1 15 := h.symm
  rw [immOfBool, hbit, habove]
  exact BitVec.extractLsb'_append_extractLsb'

theorem exists_immOfBool_iff {w : Command} :
    (∃ b, immField w = immOfBool b) ↔ immField w &&& (BitVec.allOnes 15 ++ 0#1) = 0#16 := by
  constructor
  · rintro ⟨b, h⟩
    rw [h]
    cases b <;> rfl
  · intro h
    have habove := congrArg (BitVec.extractLsb' 1 15) h
    rw [BitVec.extractLsb'_and, BitVec.extractLsb'_append_eq_left, BitVec.and_allOnes] at habove
    exact ⟨immBool w, (immOfBool_immBool habove).symm⟩

/-! ## Decoding and encoding a command -/

theorem unlessReserved_eq_ok {reservedZero : Bool} {i j : Instr} {w : Command} :
    unlessReserved reservedZero i w = .ok j ↔ reservedZero = true ∧ i = j := by
  cases reservedZero <;> simp [unlessReserved]

/-- Settles O1: the opcode selects the command's arm, where the reserved fields are zero and each operand
field holds its operand. -/
theorem encodedCommandDecodesToItself : Obligations.EncodedCommandDecodesToItself := by
  intro i hi
  cases i with
  | nop | advanceFwd | advanceBwd | readNeutral => rfl
  | setDuty | setPeriod | enable | setStep | setCommPeriod | pwmSetDuty | pullPhase | readErrcnt
  | readReg => simp [encode, Instr.code, decodeCommand, unlessReserved]
  | _ => cases hi

/-- Settles O2: each arm of the decoder fixes the opcode and the reserved fields, and the operands are the
other fields, so all four fields of the word are those of the encoding. -/
theorem decodedCommandHasItsWord : Obligations.DecodedCommandHasItsWord := by
  intro w i h
  unfold decodeCommand at h
  split at h
  case h_14 => cases h
  all_goals
    rename_i hop
    have hopField := congrArg (BitVec.ofNat 8) hop
    rw [BitVec.ofNat_toNat, BitVec.setWidth_eq] at hopField
    simp only [unlessReserved_eq_ok, Bool.and_eq_true, beq_iff_eq] at h
    obtain ⟨hreserved, rfl⟩ := h
    refine ⟨rfl, commandWord_eq_iff.2 ?_⟩
    simp [hopField, hreserved, Instr.code, immOfBool_immBool]

theorem decodeCommand_eq_ok_iff {w : Command} {i : Instr} :
    decodeCommand w = .ok i ↔ i.isCommand = true ∧ encode i = w := by
  constructor
  · exact decodedCommandHasItsWord w i
  · rintro ⟨hi, rfl⟩
    exact encodedCommandDecodesToItself i hi

/-! ## The rows of the opcode table (rules R103 and R104), by the operands they leave open -/

section
variable {op : U8} {w : Command}

theorem exact_row_iff :
    commandWord op 0 0 0 = w ↔ w &&& BitVec.allOnes 64 = commandWord op 0 0 0 := by
  rw [BitVec.and_allOnes, eq_comm]

theorem data_row_iff : (∃ data, commandWord op 0 0 data = w) ↔
    w &&& commandWord (.allOnes 8) (.allOnes 8) (.allOnes 16) 0 = commandWord op 0 0 0 := by
  simp [commandWord_eq_iff, and_commandWord_eq_iff, -BitVec.reduceAllOnes]

theorem imm_row_iff : (∃ imm, commandWord op 0 imm 0 = w) ↔
    w &&& commandWord (.allOnes 8) (.allOnes 8) 0 (.allOnes 32) = commandWord op 0 0 0 := by
  simp [commandWord_eq_iff, and_commandWord_eq_iff, -BitVec.reduceAllOnes]

theorem bool_row_iff : (∃ b, commandWord op 0 (immOfBool b) 0 = w) ↔
    w &&& commandWord (.allOnes 8) (.allOnes 8) (BitVec.allOnes 15 ++ 0#1) (.allOnes 32) =
      commandWord op 0 0 0 := by
  simp [commandWord_eq_iff, and_commandWord_eq_iff, ← exists_immOfBool_iff, -BitVec.reduceAllOnes,
    -Bool.exists_bool]

theorem sel_data_row_iff : (∃ sel data, commandWord op sel 0 data = w) ↔
    w &&& commandWord (.allOnes 8) 0 (.allOnes 16) 0 = commandWord op 0 0 0 := by
  simp [commandWord_eq_iff, and_commandWord_eq_iff, -BitVec.reduceAllOnes]

theorem sel_bool_row_iff : (∃ sel b, commandWord op sel (immOfBool b) 0 = w) ↔
    w &&& commandWord (.allOnes 8) 0 (BitVec.allOnes 15 ++ 0#1) (.allOnes 32) =
      commandWord op 0 0 0 := by
  simp [commandWord_eq_iff, and_commandWord_eq_iff, ← exists_immOfBool_iff, -BitVec.reduceAllOnes,
    -Bool.exists_bool]

theorem sel_row_iff : (∃ sel, commandWord op sel 0 0 = w) ↔
    w &&& commandWord (.allOnes 8) 0 (.allOnes 16) (.allOnes 32) = commandWord op 0 0 0 := by
  simp [commandWord_eq_iff, and_commandWord_eq_iff, -BitVec.reduceAllOnes]

end

/-- Settles O4: a word decodes to a command exactly when it is its encoding, and each row says so for the
operands its mask leaves open. -/
theorem commandWordsAreTheTableRows : Obligations.CommandWordsAreTheTableRows := by
  intro w
  simp only [decodeCommand_eq_ok_iff, Instr.isCommand, Instr.agents, beq_self_eq_true, true_and, encode]
  exact ⟨exact_row_iff, data_row_iff, imm_row_iff, bool_row_iff, imm_row_iff, exact_row_iff,
    exact_row_iff, data_row_iff, sel_data_row_iff, sel_bool_row_iff, exact_row_iff, sel_row_iff,
    sel_row_iff⟩

/-! ## Event words (rule R111, log 11) -/

@[simp] theorem directionOfBit_bitOfDirection (d : Direction) :
    directionOfBit (bitOfDirection d) = d := by
  cases d <;> rfl

@[simp] theorem decodeEvent_adcConvBeat (v : U16) :
    decodeEvent (eventWord 0x83 (0#40 ++ v)) = .ok (.adcConvBeat v) := by
  have hunused : (0#40 ++ v : BitVec 56).extractLsb' 16 40 = 0 := BitVec.extractLsb'_append_eq_left
  have hv : (0#40 ++ v : BitVec 56).extractLsb' 0 16 = v := BitVec.extractLsb'_append_eq_right
  simp [decodeEvent, unlessOperand, hunused, hv]

/-- The operand bits of RESET, COMM_DIRECTION as a bit. -/
def resetOperand (p : U16) (us : U32) (bwd : Bool) : BitVec 56 :=
  0#7 ++ BitVec.ofBool bwd ++ us ++ p

section
variable (p : U16) (us : U32) (bwd : Bool)

theorem encode_reset (d : Direction) :
    encode (.reset p us d) = eventWord 0x8F (resetOperand p us (bitOfDirection d)) := rfl

@[simp] theorem resetOperand_period : (resetOperand p us bwd).extractLsb' 0 16 = p :=
  BitVec.extractLsb'_append_eq_right

@[simp] theorem resetOperand_commPeriod : (resetOperand p us bwd).extractLsb' 16 32 = us :=
  calc (resetOperand p us bwd).extractLsb' 16 32
      = (0#7 ++ BitVec.ofBool bwd ++ us).extractLsb' 0 32 :=
        BitVec.extractLsb'_append_eq_of_le (Nat.le_refl 16)
    _ = us := BitVec.extractLsb'_append_eq_right

@[simp] theorem resetOperand_direction : (resetOperand p us bwd)[48] = bwd :=
  calc (resetOperand p us bwd)[48]
      = (0#7 ++ BitVec.ofBool bwd ++ us).getLsbD 32 := BitVec.getLsbD_append
    _ = (0#7 ++ BitVec.ofBool bwd).getLsbD 0 := BitVec.getLsbD_append
    _ = bwd := by cases bwd <;> rfl

@[simp] theorem resetOperand_unused : (resetOperand p us bwd).extractLsb' 49 7 = 0 :=
  calc (resetOperand p us bwd).extractLsb' 49 7
      = (0#7 ++ BitVec.ofBool bwd ++ us).extractLsb' 33 7 :=
        BitVec.extractLsb'_append_eq_of_le (by decide)
    _ = (0#7 ++ BitVec.ofBool bwd).extractLsb' 1 7 := BitVec.extractLsb'_append_eq_of_le (by decide)
    _ = 0 := BitVec.extractLsb'_append_eq_left

end

/-- Settles O3: the code selects the event's arm, where the bits above the operands are zero and each
operand stands at its place. -/
theorem encodedEventDecodesToItself : Obligations.EncodedEventDecodesToItself := by
  intro i hi
  cases i with
  | ctExpire | tick | pwmTrigger | adcConvDrop | tcBegin | tcRead | errHandle | adcStatusHandle => rfl
  | adcConvBeat v => exact decodeEvent_adcConvBeat v
  | dmaTe stop => cases stop <;> rfl
  | dmaDme stop => cases stop <;> rfl
  | reset p us d => simp [encode_reset, decodeEvent, unlessOperand]
  | _ => cases hi

namespace Machine

/-! ## The encoding examples (rule R114) -/

theorem assembled_word_decodes {l : AsmLine} {i : Instr} {w : Command} (hl : assemble l = some i)
    (hi : i.isCommand = true) (hw : encode i = w) :
    assembleWord l = some w ∧ decodeCommand w = .ok i :=
  ⟨by rw [assembleWord, hl, Option.map_some, hw], decodeCommand_eq_ok_iff.2 ⟨hi, hw⟩⟩

/-- Settles O5: each line assembles to its command, whose encoding is the word beside it. -/
theorem specExampleWordsDecode : Obligations.SpecExampleWordsDecode :=
  ⟨assembled_word_decodes rfl rfl rfl, assembled_word_decodes rfl rfl rfl,
    assembled_word_decodes rfl rfl rfl, assembled_word_decodes rfl rfl rfl,
    assembled_word_decodes rfl rfl rfl, assembled_word_decodes rfl rfl rfl,
    assembled_word_decodes rfl rfl rfl, assembled_word_decodes rfl rfl rfl,
    assembled_word_decodes rfl rfl rfl, assembled_word_decodes rfl rfl rfl,
    assembled_word_decodes rfl rfl rfl⟩

/-! ## The step that runs the next word (rule R109) -/

theorem step_of_host {s : State} {ts : List Turn} (h : s.turns = .host :: ts) :
    step s = hostTurn { s with turns := ts } := by
  rw [step, nextTurn_cons h, popTurn_cons h]

theorem step_of_agent {s : State} {ts : List Turn} {i : Instr} (h : s.turns = .agent i :: ts) :
    step s = exec i { s with turns := ts } := by
  rw [step, nextTurn_cons h, popTurn_cons h]

section
variable {s : State} {w : Command} {ws : List Command} (hidle : s.tch = .idle)
  (hword : s.hostWords = w :: ws)
include hidle hword

theorem hostTurn_of_decoded {i : Instr} (hi : decodeCommand w = .ok i) :
    hostTurn s = exec i { s with hostWords := ws } := by
  rw [hostTurn, if_pos (by simp [hostEnabled, hidle]), nextWord_cons hword, popWord_cons hword, hi]

theorem hostTurn_of_undecodable {e : DecodeError} (he : decodeCommand w = .error e) :
    hostTurn s = .next (rejectWord w { s with hostWords := ws }) := by
  rw [hostTurn, if_pos (by simp [hostEnabled, hidle]), nextWord_cons hword, popWord_cons hword, he]

variable {ts : List Turn} (hturn : s.turns = .host :: ts)
include hturn

theorem step_of_decoded {i : Instr} (hi : decodeCommand w = .ok i) :
    step s = exec i { s with turns := ts, hostWords := ws } :=
  (step_of_host hturn).trans (hostTurn_of_decoded (s := { s with turns := ts }) hidle hword hi)

theorem step_of_undecodable {e : DecodeError} (he : decodeCommand w = .error e) :
    step s = .next (rejectWord w { s with turns := ts, hostWords := ws }) :=
  (step_of_host hturn).trans (hostTurn_of_undecodable (s := { s with turns := ts }) hidle hword he)

end

/-- Settles O46: the turn that stands first is taken, and HOST's is served while the handler is idle. -/
theorem stepRunsTheDecodedInstruction : Obligations.StepRunsTheDecodedInstruction := fun _ _ =>
  ⟨fun _ _ _ hturn hword hidle hi => step_of_decoded hidle hword hturn hi,
    fun _ hturn => step_of_agent hturn⟩

/-- Settles O41: the word that decodes to nothing is rejected, by a halt or by a refusal. -/
theorem illegalWordHalts : Obligations.IllegalWordHalts := by
  intro s ts w ws e hturn hword hidle he
  have hstep := step_of_undecodable hidle hword hturn he
  refine ⟨fun hrun => hstep.trans ?_, fun hhalted => hstep.trans ?_⟩
  · rw [rejectWord_running (by exact hrun)]
    rfl
  · rw [rejectWord_halted (by exact hhalted)]
    rfl

/-! ## The step after a placed row (log 15) -/

theorem toOption_eq_some {ε α : Type} {x : Except ε α} {a : α} :
    x.toOption = some a ↔ x = .ok a := by
  cases x <;> simp [Except.toOption]

theorem step_placeCommand {s : State} {w : Command} {i : Instr} (hidle : s.tch = .idle)
    (hi : decodeCommand w = .ok i) : step (placeCommand w s) = exec i s :=
  step_of_decoded (s := placeCommand w s) hidle rfl rfl hi

theorem step_placeEvent {w : BitVec 64} {i : Instr} (hi : decodeEvent w = .ok i) (s : State) :
    step (placeEvent w s) = exec i s := by
  rw [placeEvent, hi]
  exact step_of_agent rfl

/-- Settles O47: a row of 64 bits is placed as HOST's next word, a row of 8 bits as the next turn. -/
theorem fetchWordRunsTheRow : Obligations.FetchWordRunsTheRow := fun s _ _ =>
  ⟨fun hidle hi => step_placeCommand hidle (toOption_eq_some.1 hi),
    fun hi => step_placeEvent (toOption_eq_some.1 hi) s⟩

end Machine

end Sys2Proof
end

section
/-! The duty numerics of 41_pwm_driver.md and the three commands that write the outputs through them. -/

namespace Sys2Proof.Machine

/-! ## Rounding to an integer, ties to even (00_scope.md rule R10) -/

/-- Both neighbours of `n / d`, when each is taken, and which one at a tie. -/
theorem roundHalfEven_cases (n d : Nat) :
    (roundHalfEven n d = n / d ∧ 2 * (n % d) ≤ d ∨ roundHalfEven n d = n / d + 1 ∧ d ≤ 2 * (n % d)) ∧
      (2 * (n % d) = d → roundHalfEven n d % 2 = 0) := by
  unfold roundHalfEven
  split_ifs <;> omega

theorem roundHalfEven_mul_left {d : Nat} (k : Nat) (hd : 0 < d) : roundHalfEven (k * d) d = k := by
  simp [roundHalfEven, hd]

theorem roundHalfEven_mul_of_dvd {n d : Nat} (hd : 0 < d) (h : d ∣ n) : roundHalfEven n d * d = n := by
  obtain ⟨k, rfl⟩ := h
  rw [Nat.mul_comm d, roundHalfEven_mul_left k hd]

theorem roundHalfEven_mul_mul {c : Nat} (n d : Nat) (hc : 0 < c) :
    roundHalfEven (n * c) (d * c) = roundHalfEven n d := by
  simp only [roundHalfEven, Nat.mul_div_mul_right n d hc, Nat.mul_mod_mul_right, ← Nat.mul_assoc,
    Nat.mul_lt_mul_right hc]

theorem roundHalfEven_mono {n n' d : Nat} (h : n ≤ n') : roundHalfEven n d ≤ roundHalfEven n' d := by
  obtain rfl | hlt := h.eq_or_lt
  · exact le_rfl
  have hdiv : n / d ≤ n' / d := Nat.div_le_div_right h
  have hmod : n / d = n' / d → n % d < n' % d := fun heq => by
    have hn := Nat.div_add_mod n d
    have hn' := Nat.div_add_mod n' d
    rw [heq] at hn
    omega
  have hround := (roundHalfEven_cases n d).1
  have hround' := (roundHalfEven_cases n' d).1
  omega

theorem le_roundHalfEven {n d k : Nat} (hd : 0 < d) (h : k * d ≤ n) : k ≤ roundHalfEven n d :=
  (roundHalfEven_mul_left k hd).symm.trans_le (roundHalfEven_mono h)

theorem roundHalfEven_le {n d k : Nat} (hd : 0 < d) (h : n ≤ k * d) : roundHalfEven n d ≤ k :=
  (roundHalfEven_mono h).trans_eq (roundHalfEven_mul_left k hd)

/-- The rounding error is at most one half, and one half only at an even result. -/
theorem two_mul_dist_roundHalfEven_le {d : Nat} (n : Nat) (hd : 0 < d) :
    2 * Nat.dist (roundHalfEven n d * d) n ≤ d ∧
      (2 * Nat.dist (roundHalfEven n d * d) n = d → roundHalfEven n d % 2 = 0) := by
  have hn := Nat.div_add_mod' n d
  have hlt := Nat.mod_lt n hd
  have hsucc := Nat.add_one_mul (n / d) d
  obtain ⟨⟨hr, ht⟩ | ⟨hr, ht⟩, htie⟩ := roundHalfEven_cases n d
  · have herror : Nat.dist (roundHalfEven n d * d) n = n % d := by rw [hr, Nat.dist]; omega
    rw [herror]
    exact ⟨ht, htie⟩
  · have herror : Nat.dist (roundHalfEven n d * d) n = d - n % d := by rw [hr, Nat.dist]; omega
    rw [herror]
    exact ⟨by omega, fun h => htie (by omega)⟩

/-- No multiple of `d` is nearer to `n`, and only from an even result is another as near: two different
multiples are `d` apart. -/
theorem dist_roundHalfEven_le {d : Nat} (n k : Nat) (hd : 0 < d) :
    Nat.dist (roundHalfEven n d * d) n ≤ Nat.dist (k * d) n ∧
      (Nat.dist (roundHalfEven n d * d) n = Nat.dist (k * d) n → k ≠ roundHalfEven n d →
        roundHalfEven n d % 2 = 0) := by
  obtain ⟨hhalf, htie⟩ := two_mul_dist_roundHalfEven_le n hd
  obtain rfl | hne := eq_or_ne k (roundHalfEven n d)
  · exact ⟨le_rfl, fun _ h => absurd rfl h⟩
  have hapart : d ≤ Nat.dist (roundHalfEven n d * d) (k * d) := by
    rw [Nat.dist_mul_right]
    exact Nat.le_mul_of_pos_left d (Nat.dist_pos_of_ne hne.symm)
  have htriangle := Nat.dist.triangle_inequality (roundHalfEven n d * d) n (k * d)
  rw [Nat.dist_comm n] at htriangle
  exact ⟨by omega, fun heq _ => htie (by omega)⟩

/-! ## Magnitudes and their values -/

/-- Every magnitude is an exponent and a significand that is normal above the least exponent. -/
theorem exists_significand (m : Nat) :
    ∃ e r, r < 2 ^ 24 ∧ (e = 0 ∨ 2 ^ 23 ≤ r) ∧ e * 2 ^ 23 + r = m :=
  ⟨m / 2 ^ 23 - 1, m - (m / 2 ^ 23 - 1) * 2 ^ 23, by omega, by omega, by omega⟩

/-- The significand may have carried into the next exponent. -/
theorem units_significand {e r : Nat} (hr : r ≤ 2 ^ 24) (hnormal : e = 0 ∨ 2 ^ 23 ≤ r) :
    units (e * 2 ^ 23 + r) = r * 2 ^ e := by
  unfold units
  obtain hsub | hnorm | rfl : (e = 0 ∧ r < 2 ^ 23) ∨ (2 ^ 23 ≤ r ∧ r < 2 ^ 24) ∨ r = 2 ^ 24 := by omega
  · obtain ⟨rfl, hlt⟩ := hsub
    rw [if_pos (by omega)]; omega
  · have hexp : (e * 2 ^ 23 + r) / 2 ^ 23 = e + 1 := by omega
    have hfrac : 2 ^ 23 + (e * 2 ^ 23 + r) % 2 ^ 23 = r := by omega
    rw [if_neg (by omega), hexp, hfrac, Nat.add_sub_cancel]
  · have hexp : (e * 2 ^ 23 + 2 ^ 24) / 2 ^ 23 = e + 2 := by omega
    have hfrac : (e * 2 ^ 23 + 2 ^ 24) % 2 ^ 23 = 0 := by omega
    rw [if_neg (by omega), hexp, hfrac, show e + 2 - 1 = e + 1 by omega, Nat.pow_succ]
    omega

theorem units_strictMono : StrictMono units := by
  refine strictMono_nat_of_lt_succ fun m => ?_
  obtain ⟨e, r, hr, hnormal, rfl⟩ := exists_significand m
  rw [Nat.add_assoc, units_significand hr.le hnormal, units_significand hr (by omega)]
  exact Nat.mul_lt_mul_of_pos_right (Nat.lt_succ_self r) (Nat.two_pow_pos e)

/-- A value off the grid of `2 ^ e` lies below the grid's normal significands. -/
theorem pow_dvd_units_or_lt (e m : Nat) : 2 ^ e ∣ units m ∨ 0 < e ∧ units m < 2 ^ 23 * 2 ^ e := by
  obtain ⟨e', r, hr, hnormal, rfl⟩ := exists_significand m
  rw [units_significand hr.le hnormal]
  obtain hlt | hle := Nat.lt_or_ge e' e
  · refine .inr ⟨by omega, ?_⟩
    calc r * 2 ^ e' < 2 ^ 24 * 2 ^ e' := Nat.mul_lt_mul_of_pos_right hr (Nat.two_pow_pos e')
      _ = 2 ^ 23 * 2 ^ (e' + 1) := by ring
      _ ≤ 2 ^ 23 * 2 ^ e := Nat.mul_le_mul_left _ (Nat.pow_le_pow_right (by decide) hlt)
  · exact .inl (Dvd.dvd.mul_left (Nat.pow_dvd_pow 2 hle) r)

/-! ## The last place of a whole number of units -/

theorem lastPlace_mono {n n' : Nat} (h : n ≤ n') : lastPlace n 1 ≤ lastPlace n' 1 := by
  have hlog : n.log2 ≤ n'.log2 := by
    simpa only [Nat.log2_eq_log_two] using Nat.log_mono_right h
  simp only [lastPlace, Nat.div_one]
  omega

theorem lastPlace_le {n k : Nat} (h : n < 2 ^ (24 + k)) : lastPlace n 1 ≤ k := by
  rw [lastPlace, Nat.div_one]
  obtain rfl | hn := Nat.eq_zero_or_pos n
  · simp
  · have := (Nat.log2_lt hn.ne').2 h
    omega

theorem le_lastPlace (n : Nat) : n ≤ 2 ^ 24 * 2 ^ lastPlace n 1 := by
  rw [← Nat.pow_add, lastPlace, Nat.div_one]
  exact Nat.lt_log2_self.le.trans (Nat.pow_le_pow_right (by decide) (by omega))

theorem le_of_lastPlace_pos {n : Nat} (h : 0 < lastPlace n 1) : 2 ^ 23 * 2 ^ lastPlace n 1 ≤ n := by
  have hlog : lastPlace n 1 = n.log2 - 23 := by simp [lastPlace]
  have hn : n ≠ 0 := by rintro rfl; simp [lastPlace] at h
  rw [← Nat.pow_add, hlog, show 23 + (n.log2 - 23) = n.log2 by omega]
  exact Nat.log2_self_le hn

/-! ## The nearest binary32

A product of a fraction of [+0.0, 1.0] and a period below 2^24 is below 2^173 units, far below the
largest finite value. -/

theorem nearestMagnitude_mul (n : Nat) {c : Nat} (hc : 0 < c) :
    nearestMagnitude (n * c) c = nearestMagnitude n 1 := by
  have hplace : lastPlace (n * c) c = lastPlace n 1 := by
    rw [lastPlace, Nat.mul_div_cancel n hc, lastPlace, Nat.div_one]
  rw [nearestMagnitude, nearestMagnitude, hplace, Nat.mul_comm c,
    roundHalfEven_mul_mul _ _ hc, Nat.one_mul]

/-- The significand of the binary32 nearest to `n` units, before a carry into the exponent. -/
def nearestSignificand (n : Nat) : Nat := roundHalfEven n (2 ^ lastPlace n 1)

theorem nearestSignificand_le (n : Nat) : nearestSignificand n ≤ 2 ^ 24 :=
  roundHalfEven_le (Nat.two_pow_pos _) (le_lastPlace n)

theorem nearestSignificand_normal (n : Nat) : lastPlace n 1 = 0 ∨ 2 ^ 23 ≤ nearestSignificand n :=
  (Nat.eq_zero_or_pos (lastPlace n 1)).imp_right fun h =>
    le_roundHalfEven (Nat.two_pow_pos _) (le_of_lastPlace_pos h)

section
variable {n : Nat} (hn : n < 2 ^ 173)
include hn

theorem nearestSignificand_finite :
    lastPlace n 1 * 2 ^ 23 + nearestSignificand n < infinityMagnitude := by
  have hplace : lastPlace n 1 ≤ 149 := lastPlace_le hn
  have hsig := nearestSignificand_le n
  unfold infinityMagnitude
  omega

theorem nearestMagnitude_eq :
    nearestMagnitude n 1 = lastPlace n 1 * 2 ^ 23 + nearestSignificand n := by
  rw [nearestMagnitude, Nat.one_mul]
  exact Nat.min_eq_left (nearestSignificand_finite hn).le

theorem nearestMagnitude_lt : nearestMagnitude n 1 < infinityMagnitude :=
  (nearestMagnitude_eq hn).trans_lt (nearestSignificand_finite hn)

theorem units_nearestMagnitude :
    units (nearestMagnitude n 1) = nearestSignificand n * 2 ^ lastPlace n 1 := by
  rw [nearestMagnitude_eq hn]
  exact units_significand (nearestSignificand_le n) (nearestSignificand_normal n)

/-- A value that is a multiple of its last place is exact. -/
theorem units_nearestMagnitude_of_dvd (h : 2 ^ lastPlace n 1 ∣ n) :
    units (nearestMagnitude n 1) = n := by
  rw [units_nearestMagnitude hn, nearestSignificand, roundHalfEven_mul_of_dvd (Nat.two_pow_pos _) h]

theorem two_mul_dist_nearestMagnitude_le :
    2 * Nat.dist (units (nearestMagnitude n 1)) n ≤ 2 ^ lastPlace n 1 := by
  rw [units_nearestMagnitude hn]
  exact (two_mul_dist_roundHalfEven_le n (Nat.two_pow_pos _)).1

/-- The binary32 below grows with the significand, or lies below the next exponent. -/
theorem nearestMagnitude_mono {m : Nat} (h : m ≤ n) : nearestMagnitude m 1 ≤ nearestMagnitude n 1 := by
  have hsig := nearestSignificand_le m
  rw [nearestMagnitude_eq hn, nearestMagnitude_eq (h.trans_lt hn)]
  obtain heq | hlt := (lastPlace_mono h).eq_or_lt
  · have hround : nearestSignificand m ≤ nearestSignificand n := by
      rw [nearestSignificand, nearestSignificand, heq]
      exact roundHalfEven_mono h
    omega
  · have hnormal := nearestSignificand_normal n
    omega

/-- No binary32 is nearer to `n`, and only from an even pattern is another as near. A value off the grid
of the last place is further away than the least normal significand on it. -/
theorem dist_nearestMagnitude_le (m : Nat) :
    Nat.dist (units (nearestMagnitude n 1)) n ≤ Nat.dist (units m) n ∧
      (Nat.dist (units (nearestMagnitude n 1)) n = Nat.dist (units m) n → m ≠ nearestMagnitude n 1 →
        nearestMagnitude n 1 % 2 = 0) := by
  have hgrid k := dist_roundHalfEven_le n k (Nat.two_pow_pos (lastPlace n 1))
  rw [units_nearestMagnitude hn, nearestMagnitude_eq hn]
  obtain ⟨k, hk⟩ | ⟨hpos, hlt⟩ := pow_dvd_units_or_lt (lastPlace n 1) m
  · rw [Nat.mul_comm] at hk
    rw [hk]
    refine ⟨(hgrid k).1, fun heq hne => ?_⟩
    have hsig : k ≠ nearestSignificand n := by
      rintro rfl
      refine hne (units_strictMono.injective ?_)
      rw [hk, ← nearestMagnitude_eq hn, units_nearestMagnitude hn]
    have heven : nearestSignificand n % 2 = 0 := (hgrid k).2 heq hsig
    omega
  · have hleast := le_of_lastPlace_pos hpos
    have hfar : Nat.dist (2 ^ 23 * 2 ^ lastPlace n 1) n < Nat.dist (units m) n := by
      rw [Nat.dist_eq_sub_of_le hleast, Nat.dist_eq_sub_of_le (hlt.le.trans hleast)]
      omega
    have hnear := (hgrid (2 ^ 23)).1.trans_lt hfar
    exact ⟨hnear.le, fun heq => absurd heq hnear.ne⟩

end

/-! ## Binary32 patterns of non-negative values -/

theorem magnitude_of_le {f : Float32Bits} (h : f.toNat ≤ infinityMagnitude) :
    magnitude f = f.toNat :=
  Nat.mod_eq_of_lt (h.trans_lt (by decide))

theorem toNat_ofMagnitude {m : Nat} (h : m < infinityMagnitude) : (ofMagnitude false m).toNat = m := by
  have hm : m < 2 ^ 32 := h.trans (by decide)
  simpa [ofMagnitude] using hm

theorem magnitude_ofMagnitude {m : Nat} (h : m < infinityMagnitude) :
    magnitude (ofMagnitude false m) = m := by
  rw [magnitude, toNat_ofMagnitude h]
  exact Nat.mod_eq_of_lt (h.trans (by decide))

theorem msb_ofMagnitude {m : Nat} (h : m < infinityMagnitude) : (ofMagnitude false m).msb = false := by
  rw [BitVec.msb_eq_decide, toNat_ofMagnitude h]
  exact decide_eq_false (Nat.not_le.2 (h.trans (by decide)))

theorem msb_of_le {f : Float32Bits} (h : f.toNat ≤ infinityMagnitude) : f.msb = false := by
  rw [BitVec.msb_eq_decide]
  exact decide_eq_false (Nat.not_le.2 (h.trans_lt (by decide)))

theorem le_infinity_of_le_one {m : Nat} (h : m ≤ oneMagnitude) : m ≤ infinityMagnitude :=
  h.trans (by decide)

theorem units_oneMagnitude : units oneMagnitude = 2 ^ 149 := by decide

theorem units_le_of_le {f : Float32Bits} (h : f.toNat ≤ oneMagnitude) :
    units (magnitude f) ≤ 2 ^ 149 := by
  rw [magnitude_of_le (le_infinity_of_le_one h), ← units_oneMagnitude]
  exact units_strictMono.monotone h

theorem exactProduct_le {f : Float32Bits} (per : Nat) (hf : f.toNat ≤ oneMagnitude) :
    units (magnitude f) * per ≤ per * 2 ^ 149 := by
  rw [Nat.mul_comm]
  exact Nat.mul_le_mul_left per (units_le_of_le hf)

theorem fmul32_of_finite {a b : Float32Bits} (ha : magnitude a < infinityMagnitude)
    (hb : magnitude b < infinityMagnitude) : fmul32 a b =
      ofMagnitude (a.msb != b.msb)
        (nearestMagnitude (units (magnitude a) * units (magnitude b)) (2 ^ 149)) := by
  simp [fmul32, isNaN, ha.not_gt, hb.not_gt, ha.ne, hb.ne]

/-! ## The period and the product in binary32 (rule R131) -/

section
variable {per : Nat} (hper : per < 2 ^ 24)
include hper

theorem period_units_lt : per * 2 ^ 149 < 2 ^ 173 := by omega

theorem magnitude_float32 : magnitude (float32 per) = nearestMagnitude (per * 2 ^ 149) 1 :=
  magnitude_ofMagnitude (nearestMagnitude_lt (period_units_lt hper))

theorem msb_float32 : (float32 per).msb = false :=
  msb_ofMagnitude (nearestMagnitude_lt (period_units_lt hper))

theorem float32_finite : magnitude (float32 per) < infinityMagnitude :=
  (magnitude_float32 hper).trans_lt (nearestMagnitude_lt (period_units_lt hper))

/-- 24 bits hold the period. -/
theorem units_float32 : units (magnitude (float32 per)) = per * 2 ^ 149 := by
  have hn := period_units_lt hper
  rw [magnitude_float32 hper]
  exact units_nearestMagnitude_of_dvd hn
    (Dvd.dvd.mul_left (Nat.pow_dvd_pow 2 (lastPlace_le hn)) per)

variable {f : Float32Bits} (hf : f.toNat ≤ oneMagnitude)
include hf

theorem exactProduct_lt : units (magnitude f) * per < 2 ^ 173 :=
  (exactProduct_le per hf).trans_lt (period_units_lt hper)

/-- The exact product is a whole number of units, so the binary32 product is the one nearest to it. -/
theorem fmul32_float32 :
    fmul32 f (float32 per) = ofMagnitude false (nearestMagnitude (units (magnitude f) * per) 1) := by
  have hinf := le_infinity_of_le_one hf
  have hfinite : magnitude f < infinityMagnitude := by
    rw [magnitude_of_le hinf]
    exact hf.trans_lt (by decide)
  rw [fmul32_of_finite hfinite (float32_finite hper), msb_of_le hinf, msb_float32 hper,
    units_float32 hper, ← Nat.mul_assoc, nearestMagnitude_mul _ (Nat.two_pow_pos 149)]
  rfl

theorem magnitude_fmul32 :
    magnitude (fmul32 f (float32 per)) = nearestMagnitude (units (magnitude f) * per) 1 := by
  rw [fmul32_float32 hper hf, magnitude_ofMagnitude (nearestMagnitude_lt (exactProduct_lt hper hf))]

/-- The rounding keeps the product at most the period, which is exact. -/
theorem units_fmul32_le : units (magnitude (fmul32 f (float32 per))) ≤ per * 2 ^ 149 := by
  rw [← units_float32 hper, magnitude_fmul32 hper hf, magnitude_float32 hper]
  exact units_strictMono.monotone
    (nearestMagnitude_mono (period_units_lt hper) (exactProduct_le per hf))

/-- The order of the fractions' patterns is that of their products. -/
theorem magnitude_fmul32_mono {g : Float32Bits} (hgf : g.toNat ≤ f.toNat) :
    magnitude (fmul32 g (float32 per)) ≤ magnitude (fmul32 f (float32 per)) := by
  have hg := hgf.trans hf
  have hunits : units (magnitude g) ≤ units (magnitude f) := by
    rw [magnitude_of_le (le_infinity_of_le_one hg), magnitude_of_le (le_infinity_of_le_one hf)]
    exact units_strictMono.monotone hgf
  rw [magnitude_fmul32 hper hg, magnitude_fmul32 hper hf]
  exact nearestMagnitude_mono (exactProduct_lt hper hf) (Nat.mul_le_mul_right per hunits)

end

/-- Settles O7: the product is the rounding of a whole number of units, and no binary32 is nearer. -/
theorem productIsNearestBinary32 : Obligations.ProductIsNearestBinary32 := by
  intro f per hf hper
  have hn := exactProduct_lt hper hf
  refine ⟨units_float32 hper, ?_, ?_, fun m _ => ?_⟩
  · rw [fmul32_float32 hper hf, msb_ofMagnitude (nearestMagnitude_lt hn)]
  · rw [magnitude_fmul32 hper hf]
    exact nearestMagnitude_lt hn
  · have hmul : units (magnitude f) * (per * 2 ^ 149) = units (magnitude f) * per * 2 ^ 149 :=
      (Nat.mul_assoc _ _ _).symm
    simp only [units_float32 hper, magnitude_fmul32 hper hf, hmul, Nat.dist_mul_right,
      Nat.mul_le_mul_right_iff (Nat.two_pow_pos 149), Nat.mul_left_inj (Nat.two_pow_pos 149).ne']
    exact dist_nearestMagnitude_le hn m

/-! ## Clamp01 (rule R130) -/

theorem clamp01_of_isNaN {f : Float32Bits} (h : infinityMagnitude < magnitude f) : clamp01 f = 0 := by
  simp [clamp01, isNaN, h]

theorem clamp01_of_msb {f : Float32Bits} (h : f.msb = true) : clamp01 f = 0 := by
  simp [clamp01, h]

theorem clamp01_zero : clamp01 0 = 0 := by decide

/-- The clamp from above, on the positive patterns that are no NaN. -/
theorem clamp01_of_pos {f : Float32Bits} (hpos : 0 < f.toNat) (hinf : f.toNat ≤ infinityMagnitude) :
    clamp01 f = if oneMagnitude ≤ f.toNat then 0x3F800000 else f := by
  simp [clamp01, isNaN, magnitude_of_le hinf, msb_of_le hinf, hinf.not_gt, hpos.ne']

theorem clamp01_of_ge_one {f : Float32Bits} (hone : oneMagnitude ≤ f.toNat)
    (hinf : f.toNat ≤ infinityMagnitude) : clamp01 f = 0x3F800000 := by
  rw [clamp01_of_pos (Nat.lt_of_lt_of_le (by decide) hone) hinf, if_pos hone]

theorem clamp01_of_lt_one {f : Float32Bits} (hpos : 0 < f.toNat) (hone : f.toNat < oneMagnitude) :
    clamp01 f = f := by
  rw [clamp01_of_pos hpos (hone.le.trans (by decide)), if_neg hone.not_ge]

theorem infinityMagnitude_lt_of_fields {f : Float32Bits} (hexp : f.extractLsb' 23 8 = 0xFF)
    (hfrac : f.extractLsb' 0 23 ≠ 0) : infinityMagnitude < magnitude f := by
  have hexp' : f.toNat / 2 ^ 23 % 2 ^ 8 = 0xFF := by
    simpa [Nat.shiftRight_eq_div_pow] using congrArg BitVec.toNat hexp
  have hfrac' : f.toNat % 2 ^ 23 ≠ 0 := fun h => hfrac (BitVec.eq_of_toNat_eq (by simpa using h))
  unfold magnitude infinityMagnitude
  omega

/-- Settles O6: the clauses follow the branches of Clamp01. -/
theorem clampZeroOneCases : Obligations.ClampZeroOneCases := fun _ =>
  ⟨fun hexp hfrac => clamp01_of_isNaN (infinityMagnitude_lt_of_fields hexp hfrac), clamp01_of_msb,
    fun hzero => hzero ▸ clamp01_zero, clamp01_of_ge_one, clamp01_of_lt_one⟩

/-- Clamp01 is the identity on [+0.0, 1.0]. -/
theorem clamp01_of_le_one {f : Float32Bits} (h : f.toNat ≤ oneMagnitude) : clamp01 f = f := by
  obtain hzero | hpos := Nat.eq_zero_or_pos f.toNat
  · rw [BitVec.eq_of_toNat_eq (y := 0) hzero, clamp01_zero]
  obtain hone | hlt := h.eq_or_lt
  · rw [BitVec.eq_of_toNat_eq (y := 0x3F800000) hone]; decide
  · exact clamp01_of_lt_one hpos hlt

/-! ## DutyToCompare (rule R133) -/

theorem period_lt (per : U16) : per.toNat < 2 ^ 24 := per.isLt.trans (by decide)

theorem roundHalfAway_le {p : Float32Bits} {k : Nat} (h : units (magnitude p) ≤ k * 2 ^ 149) :
    roundHalfAway p ≤ k := by
  unfold roundHalfAway
  omega

theorem roundHalfAway_exact {p : Float32Bits} {k : Nat} (h : units (magnitude p) = k * 2 ^ 149) :
    roundHalfAway p = k := by
  unfold roundHalfAway
  omega

theorem roundHalfAway_mono {p q : Float32Bits} (h : magnitude p ≤ magnitude q) :
    roundHalfAway p ≤ roundHalfAway q :=
  Nat.div_le_div_right (Nat.add_le_add_right (units_strictMono.monotone h) _)

theorem dist_roundHalfAway_le (p : Float32Bits) :
    Nat.dist (roundHalfAway p * 2 ^ 149) (units (magnitude p)) ≤ 2 ^ 148 := by
  unfold roundHalfAway Nat.dist
  omega

/-- The final `min` is idle. -/
theorem dutyToCompare_toNat (f : Float32Bits) (per : U16) :
    (dutyToCompare f per).toNat = roundHalfAway (fmul32 (clamp01 f) (float32 per.toNat)) := by
  have hle := roundHalfAway_le (units_fmul32_le (period_lt per) (clamp01_toNat_le f))
  rw [dutyToCompare, Nat.min_eq_left hle, BitVec.toNat_ofNat, Nat.mod_eq_of_lt (hle.trans_lt per.isLt)]

theorem dutyToCompare_toNat_of_le {f : Float32Bits} (hf : f.toNat ≤ oneMagnitude) (per : U16) :
    (dutyToCompare f per).toNat = roundHalfAway (fmul32 f (float32 per.toNat)) := by
  rw [dutyToCompare_toNat, clamp01_of_le_one hf]

theorem dutyToCompare_zero (per : U16) : dutyToCompare 0 per = 0 := by
  have hproduct : magnitude (fmul32 0 (float32 per.toNat)) = 0 := by
    rw [magnitude_fmul32 (period_lt per) (by decide), show units (magnitude 0) = 0 by decide,
      Nat.zero_mul]
    decide
  apply BitVec.eq_of_toNat_eq
  rw [dutyToCompare_toNat_of_le (by decide)]
  exact roundHalfAway_exact (by rw [hproduct]; decide)

theorem dutyToCompare_one (per : U16) : dutyToCompare 0x3F800000 per = per := by
  have hone : units (magnitude 0x3F800000) = 2 ^ 149 := units_oneMagnitude
  apply BitVec.eq_of_toNat_eq
  rw [dutyToCompare_toNat_of_le (by decide)]
  apply roundHalfAway_exact
  rw [magnitude_fmul32 (period_lt per) (by decide), hone, Nat.mul_comm,
    ← magnitude_float32 (period_lt per), units_float32 (period_lt per)]

theorem dutyToCompare_period_zero (f : Float32Bits) : dutyToCompare f 0 = 0 :=
  BitVec.eq_of_toNat_eq (Nat.le_zero.1 (dutyToCompare_toNat_le f 0))

/-- Settles O8: the two ends are exact, and the rounded product is at most the period. -/
theorem dutyToCompareStaysWithinPeriod : Obligations.DutyToCompareStaysWithinPeriod := fun f per =>
  ⟨dutyToCompare_zero per, dutyToCompare_one per, dutyToCompare_period_zero f,
    dutyToCompare_toNat_le f per, dutyToCompare_toNat f per⟩

/-- Settles O9: the product and the rounding of it are monotone. -/
theorem dutyToCompareIsMonotone : Obligations.DutyToCompareIsMonotone := by
  intro f g per hfg hg
  rw [dutyToCompare_toNat_of_le (hfg.trans hg), dutyToCompare_toNat_of_le hg]
  exact roundHalfAway_mono (magnitude_fmul32_mono (period_lt per) hg hfg)

/-- A product below 2^16 has its last place at 2^-8 or less. -/
theorem dist_fmul32_le {f : Float32Bits} (hf : f.toNat ≤ oneMagnitude) (per : U16) :
    Nat.dist (units (magnitude (fmul32 f (float32 per.toNat)))) (units (magnitude f) * per.toNat) ≤
      2 ^ 140 := by
  have hn : units (magnitude f) * per.toNat < 2 ^ (24 + 141) := by
    have hle := exactProduct_le per.toNat hf
    have hper := per.isLt
    omega
  have hround := two_mul_dist_nearestMagnitude_le (exactProduct_lt (period_lt per) hf)
  have hplace : 2 ^ lastPlace (units (magnitude f) * per.toNat) 1 ≤ 2 ^ 141 :=
    Nat.pow_le_pow_right (by decide) (lastPlace_le hn)
  rw [magnitude_fmul32 (period_lt per) hf]
  omega

/-- Settles O10: the error of the integer, at most one half, and the error of the product add up. -/
theorem dutyToCompareWithinRounding : Obligations.DutyToCompareWithinRounding := by
  intro f per hf
  rw [dutyToCompare_toNat_of_le hf]
  calc 2 ^ 9 * _ ≤ 2 ^ 9 * (2 ^ 148 + 2 ^ 140) := Nat.mul_le_mul_left _
        ((Nat.dist.triangle_inequality _ _ _).trans
          (Nat.add_le_add (dist_roundHalfAway_le _) (dist_fmul32_le hf per)))
    _ = (2 ^ 8 + 1) * 2 ^ 149 := by norm_num

/-! ## The commands of the driver -/

/-- Settles O13: SET_PERIOD's effect is PERIOD, its record and its response (rule R135). -/
theorem setPeriodCompletes : Obligations.SetPeriodCompletes := by
  refine fun p => ⟨decodeCommand_eq_ok_iff.2 ⟨rfl, rfl⟩, fun s hready => ?_⟩
  rw [exec, execSetPeriod, hostWrite_ready hready]
  rfl

/-- Settles O14: ENABLE's effect is RUN, its record and its response (rule R136). -/
theorem enableCompletes : Obligations.EnableCompletes := by
  refine fun on => ⟨decodeCommand_eq_ok_iff.2 ⟨rfl, rfl⟩, fun s hready => ?_⟩
  rw [exec, execEnable, hostWrite_ready hready]
  rfl

/-- Settles O19: SEL names a channel, whose compare is written, or none, and the block halts. -/
theorem pwmSetDutyWritesOneCompare : Obligations.PwmSetDutyWritesOneCompare := by
  refine ⟨fun sel f => decodeCommand_eq_ok_iff.2 ⟨rfl, rfl⟩, fun s f hready =>
    ⟨fun c => ?_, fun sel hsel => ?_⟩⟩
  · simp only [exec, execPwmSetDuty, hostWrite_ready hready, phaseOf_phase]
    rfl
  · simp only [exec, execPwmSetDuty, hostWrite_ready hready, phaseOf_none.2 hsel]
    rfl

end Sys2Proof.Machine
end

section
/-! The phase enable lines of 42_phase_enable.md: the command that writes one of them. -/

namespace Sys2Proof.Machine

/-- Settles O20: SEL names a phase, whose enable line is written, or none, and the block halts
(rule R150). -/
theorem pullPhaseWritesOneLine : Obligations.PullPhaseWritesOneLine := by
  refine ⟨fun sel up => decodeCommand_eq_ok_iff.2 ⟨rfl, rfl⟩, fun s up hready =>
    ⟨fun p => ?_, fun sel hsel => ?_⟩⟩
  · simp only [exec, execPullPhase, hostWrite_ready hready, phaseOf_phase]
    rfl
  · simp only [exec, execPullPhase, hostWrite_ready hready, phaseOf_none.2 hsel]
    rfl

end Sys2Proof.Machine
end

section
/-! The sense unit of 43_sense.md: the mapping of ADC channels to buffer words, the steps of the ADC, the
DMA and their handlers, and the isolation of the commutation from all of it. -/

namespace Sys2Proof.Machine

/-! ## Beats and drops in the history -/

/-- The record of a beat, a sample that reached the buffer (43_sense.md rule R164). -/
def HistRecord.isBeat (r : HistRecord) : Bool :=
  match r with
  | .convBeat _ _ _ => true
  | _ => false

theorem drops_append (hist rs : List HistRecord) : drops (hist ++ rs) = drops hist + drops rs :=
  List.countP_append

/-- A beat in a longer history stands in its old part or in its new one. -/
theorem beatAfter_append {hist rs before : List HistRecord} {c i : Phase}
    (h : BeatAfter (hist ++ rs) before c i) :
    BeatAfter hist before c i ∨ ∃ b, before = hist ++ b ∧ BeatAfter rs b c i := by
  obtain ⟨v, after, h⟩ := h
  rcases List.append_eq_append_iff.1 h with ⟨b, rfl, hrs⟩ | ⟨b, rfl, hrs⟩
  · exact .inr ⟨b, rfl, v, after, hrs⟩
  · cases b with
    | nil => exact .inr ⟨[], by simp, v, after, hrs.symm⟩
    | cons r b =>
      obtain ⟨rfl, -⟩ := List.cons.inj hrs
      exact .inl ⟨v, b, rfl⟩

theorem not_beatAfter {rs before : List HistRecord} {c i : Phase} (h : rs.any HistRecord.isBeat = false) :
    ¬ BeatAfter rs before c i := by
  rintro ⟨v, after, rfl⟩
  simp [HistRecord.isBeat] at h

theorem beatAfter_singleton {before : List HistRecord} {c c' i i' : Phase} {v : U16}
    (h : BeatAfter [.convBeat c i v] before c' i') : before = [] ∧ c' = c ∧ i' = i := by
  obtain ⟨v', after, h⟩ := h
  cases before with
  | nil => cases h; exact ⟨rfl, rfl, rfl⟩
  | cons r b => simp at h

/-- A do_set_step with its step's own record holds no conversion. -/
theorem roleRecords_append_quiet (k : StepIndex) {r : HistRecord} (hbeat : r.isBeat = false)
    (hdrop : r.isDrop = false) : (roleRecords k ++ [r]).any HistRecord.isBeat = false ∧
      drops (roleRecords k ++ [r]) = 0 := by
  have hroles : (roleRecords k).any HistRecord.isBeat = false ∧ drops (roleRecords k) = 0 := by
    revert k; decide
  obtain ⟨hbeats, hdrops⟩ := hroles
  exact ⟨by simp [hbeats, hbeat], by rw [drops_append, hdrops]; simp [drops, hdrop]⟩

/-! ## The mapping of channels to buffer words -/

/-- `R k c i`: after `k` drops channel `c` is written to word `i`. It is so of every beat of the history,
and of the next one, of channel `c` into word `i`. -/
structure WordsMapped (R : Nat → Phase → Phase → Prop) (hist : List HistRecord) (c i : Phase) :
    Prop where
  next : R (drops hist) c i
  past : ∀ before c i, BeatAfter hist before c i → R (drops before) c i

theorem WordsMapped.append {R : Nat → Phase → Phase → Prop} {hist rs : List HistRecord}
    {c c' i i' : Phase} (h : WordsMapped R hist c i)
    (hrs : ∀ b c i, BeatAfter rs b c i → R (drops hist + drops b) c i)
    (hnext : R (drops hist + drops rs) c' i') : WordsMapped R (hist ++ rs) c' i' where
  next := drops_append hist rs ▸ hnext
  past before c i hb := by
    rcases beatAfter_append hb with hold | ⟨b, rfl, hnew⟩
    · exact h.past before c i hold
    · exact drops_append hist b ▸ hrs b c i hnew

/-- The beat that the mapping foresaw goes where it said. -/
theorem WordsMapped.append_beat {R : Nat → Phase → Phase → Prop} {hist : List HistRecord}
    {c c' i i' : Phase} (h : WordsMapped R hist c i) (v : U16) (hnext : R (drops hist) c' i') :
    WordsMapped R (hist ++ [.convBeat c i v]) c' i' :=
  h.append (fun b c i hb => by obtain ⟨rfl, rfl, rfl⟩ := beatAfter_singleton hb; exact h.next) hnext

theorem WordsMapped.nil {R : Nat → Phase → Phase → Prop} {c i : Phase} (h : R 0 c i) :
    WordsMapped R [] c i :=
  ⟨h, fun _ _ _ hb => (not_beatAfter_nil hb).elim⟩

/-- The mapping `R` that holds while `C` does, a condition on OVR_REALIGN and the drops since RESET. -/
def State.MapsWords (C : Bool → Nat → Prop) (R : Nat → Phase → Phase → Prop) (s : State) : Prop :=
  s.ScanLegal ∧ (C s.ovrRealign (drops s.hist) → WordsMapped R s.hist s.adcSeq s.dmaIdx)

/-- What the mapping must allow: the start, a beat, and a drop with or without the realignment of
43_sense.md rule R166. -/
structure MappingRule (C : Bool → Nat → Prop) (R : Nat → Phase → Phase → Prop) : Prop where
  start : R 0 0 0
  undrop : ∀ {realign k}, C realign (k + 1) → C realign k
  beat : ∀ {k c i}, R k c i → R k (nextPhase c) (nextPhase i)
  drop : ∀ {realign k c i}, C realign (k + 1) → R k c i →
    R (k + 1) (nextPhase c) (if realign then nextPhase i else i)

/-- A conversion ends a scan only at channel 2, and the channel after it is 0 (43_sense.md rule R162). -/
theorem nextPhase_scan_done {p : Phase} (h : decide (p ≠ 2) = false) : nextPhase p = 0 := by
  revert p; decide

section
variable {C : Bool → Nat → Prop} {R : Nat → Phase → Phase → Prop} {s t : State}

/-- Records without a conversion, while scan and buffer position stand still. -/
theorem State.MapsWords.of_records (hs : s.MapsWords C R) (rs : List HistRecord)
    (hhist : t.hist = s.hist ++ rs) (hrs : rs.any HistRecord.isBeat = false ∧ drops rs = 0)
    (hscan : t.ScanLegal) (hseq : t.adcSeq = s.adcSeq) (hidx : t.dmaIdx = s.dmaIdx)
    (hrealign : t.ovrRealign = s.ovrRealign) : t.MapsWords C R := by
  obtain ⟨hbeat, hdrops⟩ := hrs
  refine ⟨hscan, fun hc => ?_⟩
  rw [hhist, drops_append, hdrops, hrealign] at hc
  rw [hhist, hseq, hidx]
  have hmap := hs.2 hc
  exact hmap.append (fun _ _ _ hb => (not_beatAfter hbeat hb).elim) (hdrops ▸ hmap.next)

theorem Change.mapsWords {i : Instr} (hrule : MappingRule C R) (h : Change i s t) (hs : s.MapsWords C R) :
    t.MapsWords C R := by
  have ⟨hscan, hmap⟩ := hs
  cases h with
  | stays => exact hs
  | setStep _ _ k =>
    exact hs.of_records _ (List.append_assoc ..) (roleRecords_append_quiet k rfl rfl) hscan rfl rfl rfl
  | tick =>
    exact hs.of_records _ (List.append_assoc ..) (roleRecords_append_quiet s.stepIndex rfl rfl) hscan
      rfl rfl rfl
  | triggerStarts _ _ hidle =>
    exact hs.of_records _ rfl ⟨rfl, rfl⟩ nofun (hscan hidle).symm rfl rfl
  | convBeat _ v =>
    refine ⟨nextPhase_scan_done, fun hc => ?_⟩
    rw [drops_append] at hc
    exact (hmap hc).append_beat v (hrule.beat (hmap hc).next)
  | convDrop =>
    refine ⟨nextPhase_scan_done, fun hc => ?_⟩
    rw [drops_append] at hc
    have hold := hmap (hrule.undrop hc)
    exact hold.append (fun _ _ _ hb => (not_beatAfter rfl hb).elim) (hrule.drop hc hold.next)
  | reset => exact ⟨fun _ => rfl, fun _ => .nil hrule.start⟩
  | _ => exact hs.of_records _ rfl ⟨rfl, rfl⟩ hscan rfl rfl rfl

theorem SameBlock.mapsWords (h : SameBlock s t) (hs : s.MapsWords C R) : t.MapsWords C R := by
  unfold SameBlock at h
  rw [h]
  exact hs

theorem step_keeps_mapsWords (hrule : MappingRule C R) (hs : s.MapsWords C R) (h : step s = .next t) :
    t.MapsWords C R :=
  step_keeps (P := State.MapsWords C R) SameBlock.mapsWords (Change.mapsWords hrule)
    (fun _ hs => hs.of_records _ rfl ⟨rfl, rfl⟩ hs.1 rfl rfl rfl)
    (fun _ _ hs => hs.of_records _ rfl ⟨rfl, rfl⟩ hs.1 rfl rfl rfl) hs h

end

/-- The data contract as a mapping: word `c` for channel `c`, with OVR_REALIGN or before any drop. -/
theorem wordsKeepChannel_iff (s : State) : s.WordsKeepChannel ↔
    s.MapsWords (fun realign k => realign = true ∨ k = 0) (fun _ c i => i = c) :=
  and_congr_right fun _ => imp_congr_right fun _ =>
    ⟨fun h => ⟨h.1, fun before c i hb => (h.2 before c i hb).symm⟩,
      fun h => ⟨h.1, fun before c i hb => (h.2 before c i hb).symm⟩⟩

theorem keptChannel_rule : MappingRule (fun realign k => realign = true ∨ k = 0) (fun _ c i => i = c) where
  start := rfl
  undrop h := .inl (h.resolve_right (Nat.succ_ne_zero _))
  beat h := congrArg nextPhase h
  drop h hi := by rw [h.resolve_right (Nat.succ_ne_zero _), if_pos rfl, hi]

/-- Settles O51: with OVR_REALIGN a drop moves channel and word together, and without it a drop ends the
claim. -/
theorem bufferWordsKeepTheirChannel : Obligations.BufferWordsKeepTheirChannel := by
  intro s t hs h
  rw [wordsKeepChannel_iff] at hs ⊢
  exact step_keeps_mapsWords keptChannel_rule hs h

/-- The shifted mapping: word `(c - k) mod 3` for channel `c`. -/
theorem wordsShifted_iff (s : State) : s.WordsShifted ↔
    s.MapsWords (fun realign _ => realign = false) (fun k c i => (i.val + k) % 3 = c.val) :=
  and_congr_right fun _ => imp_congr_right fun _ => ⟨fun h => ⟨h.1, h.2⟩, fun h => ⟨h.1, h.2⟩⟩

theorem shifted_rule :
    MappingRule (fun realign _ => realign = false) (fun k c i => (i.val + k) % 3 = c.val) where
  start := rfl
  undrop := id
  beat {k c i} h := by simp only [nextPhase]; omega
  drop {_ k c i} hrealign h := by
    subst hrealign
    simp only [nextPhase, Bool.false_eq_true, if_false]
    omega

/-- Settles O52: a drop without realignment moves the channel but not the word. -/
theorem dropsShiftTheMapping : Obligations.DropsShiftTheMapping := by
  intro s t hs h
  rw [wordsShifted_iff] at hs ⊢
  exact step_keeps_mapsWords shifted_rule hs h

/-! ## The ADC and the DMA -/

theorem exec_pwmTrigger_running {s : State} (hrun : s.run = true) : exec .pwmTrigger s =
    .next (record .pwmTrigger (if s.adcBusy then s else { s with adcBusy := true, adcSeq := 0 })) := by
  have henabled : enabled .pwmTrigger s = true := hrun
  rw [exec, execPwmTrigger, whenEnabled_true henabled]

/-- Settles O29: the trigger's effect, split on ADC_BUSY (rule R163). -/
theorem pwmTriggerStartsAScan : Obligations.PwmTriggerStartsAScan := by
  refine fun s hrun => ⟨fun hidle => ?_, fun hbusy => ?_⟩
  · rw [exec_pwmTrigger_running hrun, if_neg (by simp [hidle])]; rfl
  · rw [exec_pwmTrigger_running hrun, if_pos hbusy]; rfl

/-- Settles O30: the transfer at DMA_IDX (rule R164), then the scan's advance (rule R162). -/
theorem convBeatCompletes : Obligations.ConvBeatCompletes := by
  intro s v hbusy hactive hv
  have henabled : enabled (.adcConvBeat v) s = true := by
    simp [enabled, convBeatEnabled, hbusy, hactive, hv]
  rw [exec, execAdcConvBeat, whenEnabled_true henabled, advanceScan_eq]
  simp only [transferSample, hbusy, Bool.true_and, nextPhase_scan s.adcSeq, nextPhase_eq s.dmaIdx]
  rfl

/-- Settles O31: the two flags, the realignment (rule R166), then the scan's advance (rule R162). -/
theorem convDropCompletes : Obligations.ConvDropCompletes := by
  intro s hbusy
  have henabled : enabled .adcConvDrop s = true := hbusy
  rw [exec, execAdcConvDrop, whenEnabled_true henabled, advanceScan_eq, realignAfterDrop_eq]
  simp only [hbusy, Bool.true_and, nextPhase_scan s.adcSeq, nextPhase_eq s.dmaIdx]
  rfl

/-- Settles O32: the stream is active, so it stays so exactly when `stop` is false (rules R170, R171). -/
theorem dmaErrorsComplete : Obligations.DmaErrorsComplete := by
  intro s stop hactive
  have henabled : dmaErrorEnabled s = true := hactive
  constructor
  · rw [exec, execDmaTe, enabled, whenEnabled_true henabled, hactive]; rfl
  · rw [exec, execDmaDme, enabled, whenEnabled_true henabled, hactive]; rfl

/-! ## The transfer-complete handler -/

/-- Settles O33: TC_BEGIN's effect where it is enabled (rule R173). -/
theorem tcBeginCompletes : Obligations.TcBeginCompletes := by
  intro s hrun hidle htc
  have henabled : enabled .tcBegin s = true := by simp [enabled, tcBeginEnabled, hrun, hidle, htc]
  rw [exec, execTcBegin, whenEnabled_true henabled]
  rfl

theorem exec_tcRead_reading {s : State} {k : Phase} (hrun : s.halted = false) (hk : s.tch = .read k) :
    exec .tcRead s = .next (readWord k s) := by
  have henabled : enabled .tcRead s = true := by simp [enabled, tcReadEnabled, hrun, hk]
  rw [exec, execTcRead, whenEnabled_true henabled, hk]

/-- A read of word 0 or 1 (rule R174). -/
theorem readWord_on {k : Phase} (hk : k ≠ 2) (s : State) : readWord k s = { s with
    drawCount := (readSample k s).2.drawCount
    acc := s.acc + (readSample k s).1.setWidth 18
    tch := .read (k + 1)
    hist := s.hist ++ [.tcRead k (readSample k s).1] } := by
  rw [readWord, readSample_state, if_neg hk, nextPhase_eq]; rfl

/-- The read of word 2, which writes the estimate (rules R174 and R175). -/
theorem readWord_last (s : State) : readWord 2 s = { s with
    drawCount := (readSample 2 s).2.drawCount
    neutral := neutralOf (s.acc + (readSample 2 s).1.setWidth 18)
    neutralValid := true
    acc := 0
    tch := .idle
    hist := s.hist ++ [.tcRead 2 (readSample 2 s).1] } := by
  rw [readWord, readSample_state, if_pos rfl]; rfl

/-- Settles O34: the sample read is the written word or one draw, and the rest is `readWord_on` or
`readWord_last`. -/
theorem tcReadCompletes : Obligations.TcReadCompletes := by
  intro s k hrun hk hbits
  refine ⟨(readSample k s).1, (readSample k s).2.drawCount, fun hwritten => ?_, fun hunwritten => ?_,
    fun hne => ?_, fun hlast => ?_⟩
  · rw [readSample_written hwritten]; exact ⟨rfl, rfl⟩
  · obtain ⟨v, hv, hread⟩ := readSample_unwritten hunwritten hbits
    rw [hread]; exact ⟨hv, rfl⟩
  · rw [exec_tcRead_reading hrun hk, readWord_on hne]
  · subst hlast
    rw [exec_tcRead_reading hrun hk, readWord_last]; rfl

theorem execAll_cons {i : Instr} {is : List Instr} {s t : State} (h : exec i s = .next t) :
    execAll (i :: is) s = execAll is t := by
  rw [execAll, h]

/-- Three samples never overflow ACC, and their mean fits 16 bits (rules R51 and R175). -/
theorem neutralOf_three (a b c : U16) :
    (neutralOf (0 + a.setWidth 18 + b.setWidth 18 + c.setWidth 18)).toNat =
      (a.toNat + b.toNat + c.toNat) / 3 := by
  have ha := a.isLt
  have hb := b.isLt
  have hc := c.isLt
  simp only [neutralOf, BitVec.ofNat_eq_ofNat, BitVec.zero_add, BitVec.toNat_ofNat,
    BitVec.toNat_add, BitVec.toNat_setWidth]
  omega

section
variable {s : State} (hrun : s.halted = false)
include hrun

theorem exec_tcRead_written_on {k : Phase} (hk : s.tch = .read k) (hwritten : s.sampleValid.get k = true)
    (hne : k ≠ 2) : exec .tcRead s = .next { s with
      acc := s.acc + (s.sample.get k).setWidth 18
      tch := .read (k + 1)
      hist := s.hist ++ [.tcRead k (s.sample.get k)] } := by
  rw [exec_tcRead_reading hrun hk, readWord_on hne, readSample_written hwritten]

theorem exec_tcRead_written_last (hk : s.tch = .read 2) (hwritten : s.sampleValid.get 2 = true) :
    exec .tcRead s = .next { s with
      neutral := neutralOf (s.acc + (s.sample.get 2).setWidth 18)
      neutralValid := true
      acc := 0
      tch := .idle
      hist := s.hist ++ [.tcRead 2 (s.sample.get 2)] } := by
  rw [exec_tcRead_reading hrun hk, readWord_last, readSample_written hwritten]

end

/-- Settles O35: TC_BEGIN, then the reads of the three words, whose sum ACC holds exactly. -/
theorem neutralIsTheTruncatedMean : Obligations.NeutralIsTheTruncatedMean := by
  intro s hrun hidle htc hvalid
  have hwritten : ∀ k, s.sampleValid.get k = true := by rw [hvalid]; decide
  refine ⟨_, neutralOf_three s.sample.e0 s.sample.e1 s.sample.e2, ?_⟩
  refine Eq.trans (execAll_cons (tcBeginCompletes s hrun hidle htc)) ?_
  -- `by exact`: the facts about `s` are used at the state before each read.
  refine Eq.trans (execAll_cons (exec_tcRead_written_on (by exact hrun) rfl
    (by exact hwritten 0) (by decide))) ?_
  refine Eq.trans (execAll_cons (exec_tcRead_written_on (by exact hrun) rfl
    (by exact hwritten 1) (by decide))) ?_
  refine Eq.trans (execAll_cons (exec_tcRead_written_last (by exact hrun) rfl
    (by exact hwritten 2))) ?_
  simp [execAll, hidle, Three.get]

/-! ## The error and status handlers -/

theorem countIf_toNat (flag : Bool) (n : U32) :
    (countIf flag n).toNat = (n.toNat + flag.toNat) % 2 ^ 32 := by
  cases flag
  · exact (Nat.mod_eq_of_lt n.isLt).symm
  · exact BitVec.toNat_add n 1

/-- Settles O36: each counter counts its own flag (rule R176). -/
theorem errHandleCompletes : Obligations.ErrHandleCompletes := by
  intro s hrun hflag
  have henabled : enabled .errHandle s = true := by simp [enabled, errHandleEnabled, hrun, hflag]
  refine ⟨_, _, countIf_toNat s.teIf s.teCnt, countIf_toNat s.dmeIf s.dmeCnt, ?_⟩
  rw [exec, execErrHandle, whenEnabled_true henabled]
  rfl

/-- Settles O37: OVR_CNT counts OVR_IF (rule R177). -/
theorem adcStatusHandleCompletes : Obligations.AdcStatusHandleCompletes := by
  intro s hrun hflag
  have henabled : enabled .adcStatusHandle s = true := by
    simp [enabled, adcStatusHandleEnabled, hrun, hflag]
  refine ⟨_, countIf_toNat s.ovrIf s.ovrCnt, ?_⟩
  rw [exec, execAdcStatusHandle, whenEnabled_true henabled]
  rfl

/-! ## The writers of the buffer -/

/-- Settles O56: only a beat and RESET write the buffer, and a beat or an error needs an active DMA. -/
theorem onlyTheDmaWritesTheBuffer : Obligations.OnlyTheDmaWritesTheBuffer := by
  intro i s t hreset h
  cases exec_change h with
  | convBeat _ v _ hactive =>
    exact ⟨fun hbeat => absurd rfl (hbeat v), fun hoff => nomatch hactive.symm.trans hoff⟩
  | dmaTe _ _ hactive => exact ⟨fun _ => ⟨rfl, rfl⟩, fun hoff => nomatch hactive.symm.trans hoff⟩
  | dmaDme _ _ hactive => exact ⟨fun _ => ⟨rfl, rfl⟩, fun hoff => nomatch hactive.symm.trans hoff⟩
  | reset _ p us d => exact absurd ⟨p, us, d, rfl⟩ hreset
  | _ => exact ⟨fun _ => ⟨rfl, rfl⟩, fun hoff => ⟨hoff, rfl, rfl⟩⟩

/-! ## Isolation of the commutation -/

theorem SameCommutation.refl (s : State) : SameCommutation s s :=
  ⟨rfl, rfl, rfl, rfl, rfl, rfl, rfl, rfl, rfl, rfl, rfl, rfl, rfl⟩

theorem isCommand_of_isSense {i : Instr} (h : i.isSense = true) : i.isCommand = false := by
  cases i with
  | pwmTrigger | adcConvBeat | adcConvDrop | dmaTe | dmaDme | tcBegin | tcRead | errHandle
  | adcStatusHandle => rfl
  | _ => exact nomatch h

/-- A sense event writes sense state and the history only (43_sense.md rule R178). -/
theorem Change.sameCommutation {i : Instr} {s t : State} (h : Change i s t) (hsense : i.isSense = true) :
    SameCommutation s t := by
  cases h with
  | refuses _ _ _ _ hcommand => exact nomatch (isCommand_of_isSense hsense).symm.trans hcommand
  | halts _ _ _ _ _ _ _ hcommand => exact nomatch (isCommand_of_isSense hsense).symm.trans hcommand
  | stays | triggerIgnored | triggerStarts | convBeat | convDrop | dmaTe | dmaDme | tcBegin | tcReadOn
  | tcReadLast | errHandle | adcStatusHandle => exact .refl s
  | _ => exact nomatch hsense

/-- `u` with the commutation state of `s` and the draws that `s` has made. -/
def State.withCommutation (u s : State) : State :=
  { u with
    stepIndex := s.stepIndex
    duty := s.duty
    dutyValid := s.dutyValid
    period := s.period
    cmp := s.cmp
    en := s.en
    run := s.run
    dir := s.dir
    commPeriod := s.commPeriod
    ctIf := s.ctIf
    halted := s.halted
    haltCause := s.haltCause
    haltInfo := s.haltInfo
    drawCount := s.drawCount }

theorem SameCommutation.eq_withCommutation {s u : State} (h : SameCommutation s u)
    (hdraws : s.drawCount = u.drawCount) : u = u.withCommutation s := by
  obtain ⟨h1, h2, h3, h4, h5, h6, h7, h8, h9, h10, h11, h12, h13⟩ := h
  rw [State.withCommutation, h1, h2, h3, h4, h5, h6, h7, h8, h9, h10, h11, h12, h13, hdraws]

section
variable {s u t t' : State}

theorem whenEnabled_sameCommutation {b : Bool} {f : State → State}
    (h : whenEnabled b f s = .next t) (h' : whenEnabled b f (u.withCommutation s) = .next t')
    (hf : SameCommutation (f s) (f (u.withCommutation s))) : SameCommutation t t' := by
  cases b with
  | false => cases h; cases h'; exact .refl s
  | true => cases h; cases h'; exact hf

theorem readDuty_withCommutation : (readDuty (u.withCommutation s)).1 = (readDuty s).1 := by
  have hvalid : (u.withCommutation s).dutyValid = s.dutyValid := rfl
  rw [readDuty, readDuty, hvalid]
  split <;> rfl

/-- do_set_step gives the outputs that it gives from `s`: it reads DUTY, PERIOD and a draw. -/
theorem doSetStep_withCommutation (k : StepIndex) :
    doSetStep k (u.withCommutation s) = { u.withCommutation s with
      cmp := (doSetStep k s).cmp
      en := (doSetStep k s).en
      hist := (doSetStep k (u.withCommutation s)).hist
      drawCount := (readDuty (u.withCommutation s)).2.drawCount } := by
  have hcmp : (doSetStep k s).cmp = (doSetStep k (u.withCommutation s)).cmp := by
    rw [doSetStep_cmp, doSetStep_cmp, readDuty_withCommutation]
    rfl
  have hen : (doSetStep k s).en = (doSetStep k (u.withCommutation s)).en := by
    rw [doSetStep_en, doSetStep_en]
  rw [hcmp, hen]
  exact doSetStep_state k _

theorem serviceTick_sameCommutation :
    SameCommutation (serviceTick s) (serviceTick (u.withCommutation s)) := by
  unfold serviceTick
  rw [doSetStep_state _ s, doSetStep_withCommutation]
  exact .refl _

variable (hhost : hostEnabled s = hostEnabled (u.withCommutation s))
include hhost

theorem hostWrite_sameCommutation {i : Instr} {f : State → State}
    (h : hostWrite i f s = .next t) (h' : hostWrite i f (u.withCommutation s) = .next t')
    (hf : SameCommutation (f s) (f (u.withCommutation s))) : SameCommutation t t' := by
  rw [hostWrite, hhost] at h
  refine whenEnabled_sameCommutation h h' ?_
  have hhalted : (u.withCommutation s).halted = s.halted := rfl
  rw [hhalted]
  split
  · exact .refl _
  · exact hf

theorem hostRead_sameCommutation {i : Instr} {f : Option (State → State)}
    (h : hostRead i f s = .next t) (h' : hostRead i f (u.withCommutation s) = .next t')
    (hf : ∀ g, f = some g → SameCommutation (g s) (g (u.withCommutation s))) : SameCommutation t t' := by
  rw [hostRead, hhost] at h
  refine whenEnabled_sameCommutation h h' ?_
  cases f with
  | some g => exact hf g rfl
  | none =>
    have hhalted : (u.withCommutation s).halted = s.halted := rfl
    dsimp only [rejectWord]
    rw [hhalted]
    split
    · exact .refl _
    · exact .refl _

/-- Every instruction but the sense events reads no more than the commutation state, the draws and whether
HOST is held. -/
theorem exec_sameCommutation {i : Instr} (hsense : i.isSense = false) (h : exec i s = .next t)
    (h' : exec i (u.withCommutation s) = .next t') : SameCommutation t t' := by
  unfold exec execNop execSetDuty execSetPeriod execEnable execSetStep execAdvanceFwd execAdvanceBwd
    execSetCommPeriod execPwmSetDuty execPullPhase execReadNeutral execReadErrcnt execReadReg
    execCtExpire execTick execReset at h h'
  cases i with
  | nop | setDuty | setPeriod | enable | advanceFwd | advanceBwd | setCommPeriod =>
    exact hostWrite_sameCommutation hhost h h' (.refl _)
  | setStep step =>
    refine hostWrite_sameCommutation hhost h h' ?_
    cases stepOf step with
    | none => exact .refl _
    | some k =>
      dsimp only
      rw [doSetStep_state k s, doSetStep_withCommutation k]
      exact .refl _
  | pwmSetDuty sel | pullPhase sel =>
    refine hostWrite_sameCommutation hhost h h' ?_
    cases phaseOf sel with
    | none => exact .refl _
    | some c => exact .refl _
  | readNeutral =>
    refine hostRead_sameCommutation hhost h h' fun g hg => ?_
    cases hg
    dsimp only
    rw [readNeutral_state s, readNeutral_state (u.withCommutation s)]
    exact .refl _
  | readErrcnt sel =>
    refine hostRead_sameCommutation hhost h h' fun g hg => ?_
    obtain ⟨c, -, rfl⟩ := Option.map_eq_some_iff.1 hg
    exact .refl _
  | readReg sel =>
    refine hostRead_sameCommutation hhost h h' fun g hg => ?_
    obtain ⟨r, -, rfl⟩ := Option.map_eq_some_iff.1 hg
    dsimp only
    rw [readRegister_state r s, readRegister_state r (u.withCommutation s)]
    exact .refl _
  | ctExpire | reset => exact whenEnabled_sameCommutation h h' (.refl _)
  | tick => exact whenEnabled_sameCommutation h h' serviceTick_sameCommutation
  | _ => exact nomatch hsense

end

/-- Settles O57: a sense event writes no commutation state, and every other instruction reads none but the
commutation state and the draws. -/
theorem senseNeverReachesCommutation : Obligations.SenseNeverReachesCommutation := by
  refine ⟨fun i s t hsense h => (exec_change h).sameCommutation hsense,
    fun i s u t t' hsense hsame hdraws hhost h h' => ?_⟩
  rw [hsame.eq_withCommutation hdraws] at hhost h'
  exact exec_sameCommutation hhost hsense h h'

end Sys2Proof.Machine
end

section
/-! The commutation of 44_commutation.md: SET_DUTY and SET_STEP, the order of the three role applications
and the only writers of the outputs. -/

namespace Sys2Proof.Machine

/-! ## SET_DUTY (rule R197) -/

/-- Settles O12: SET_DUTY's effect is DUTY, DUTY_VALID, its record and its response (rule R197). -/
theorem setDutyCompletes : Obligations.SetDutyCompletes := by
  refine fun f => ⟨decodeCommand_eq_ok_iff.2 ⟨rfl, rfl⟩, fun s hready => ?_⟩
  rw [exec, execSetDuty, hostWrite_ready hready]
  rfl

/-! ## SET_STEP (rules R195 and R200) -/

/-- Floating compares at 0 and Neutral at the period, so the compares are those of the output table. -/
theorem doSetStep_cmp_eq_compareRow (k : StepIndex) (s : State) :
    (doSetStep k s).cmp = compareRow k (dutyToCompare (readDuty s).1 s.period) s.period := by
  rw [doSetStep_cmp]
  match k with
  | 0 | 1 | 2 | 3 | 4 | 5 =>
    simp only [roleTable, dutyToCompare_zero, dutyToCompare_one, compareRow]

/-- do_set_step as the output table gives it. -/
theorem doSetStep_eq (k : StepIndex) (s : State) :
    doSetStep k s = { s with
      cmp := compareRow k (dutyToCompare (readDuty s).1 s.period) s.period
      en := enableRow k
      hist := s.hist ++ roleRecords k
      drawCount := (readDuty s).2.drawCount } := by
  rw [← doSetStep_cmp_eq_compareRow, ← doSetStep_en k s, ← doSetStep_hist]
  exact doSetStep_state k s

/-- Settles O15: do_set_step's row of the output table, with DUTY as it was written or drawn. -/
theorem setStepAppliesTheStep : Obligations.SetStepAppliesTheStep := by
  intro s k hready
  refine ⟨(readDuty s).1, (readDuty s).2.drawCount, fun hwritten => ?_, fun hunwritten => ?_, ?_⟩
  · rw [readDuty_written hwritten]
    exact ⟨rfl, rfl⟩
  · obtain ⟨d, hd, hread⟩ := readDuty_unwritten hunwritten
    rw [hread]
    exact ⟨hd, rfl⟩
  · rw [exec_setStep_ready k hready, doSetStep_eq]
    rfl

/-- Settles O16: an operand of 6 or more names no step, and the block halts (rule R195). -/
theorem setStepOutOfRangeHalts : Obligations.SetStepOutOfRangeHalts := by
  intro s step hready hstep
  simp only [exec, execSetStep, hostWrite_ready hready, stepOf_none.2 hstep]
  rfl

/-! ## The writers of the outputs (rule R201) -/

section
variable {i : Instr} {s t : State} (h : Change i s t)
include h

theorem Change.writes_cmp (hne : t.cmp ≠ s.cmp) :
    i.IsReset ∨ i = .tick ∨ (∃ k, i = .setStep k) ∨ ∃ c f, i = .pwmSetDuty c f := by
  cases h with
  | reset _ p us d => exact .inl ⟨p, us, d, rfl⟩
  | tick => exact .inr (.inl rfl)
  | setStep _ step => exact .inr (.inr (.inl ⟨step, rfl⟩))
  | pwmSetDuty _ sel f => exact .inr (.inr (.inr ⟨sel, f, rfl⟩))
  | _ => exact absurd rfl hne

theorem Change.writes_en (hne : t.en ≠ s.en) :
    i.IsReset ∨ i = .tick ∨ (∃ k, i = .setStep k) ∨ ∃ p up, i = .pullPhase p up := by
  cases h with
  | reset _ p us d => exact .inl ⟨p, us, d, rfl⟩
  | tick => exact .inr (.inl rfl)
  | setStep _ step => exact .inr (.inr (.inl ⟨step, rfl⟩))
  | pullPhase _ sel up => exact .inr (.inr (.inr ⟨sel, up, rfl⟩))
  | _ => exact absurd rfl hne

theorem Change.writes_run (hne : t.run ≠ s.run) :
    i.IsReset ∨ (∃ on, i = .enable on) ∨ (t.run = false ∧ s.halted = false ∧ t.halted = true) := by
  cases h with
  | reset _ p us d => exact .inl ⟨p, us, d, rfl⟩
  | enable _ on => exact .inr (.inl ⟨on, rfl⟩)
  | halts _ _ _ _ _ hrunning => exact .inr (.inr ⟨rfl, hrunning, rfl⟩)
  | _ => exact absurd rfl hne

end

/-- Settles O55: of all that a step can do, only its writers change an output. -/
theorem outputsHaveOnlyTheirWriters : Obligations.OutputsHaveOnlyTheirWriters := fun _ _ _ h =>
  ⟨(exec_change h).writes_cmp, (exec_change h).writes_en, (exec_change h).writes_run⟩

/-! ## Non-overlap (rules R194 and R196) -/

@[simp] theorem applyRole_en (p : Phase) (r : Role) (d : Float32Bits) (s : State) :
    (applyRole p r d s).en = s.en.set p (decide (r = .line)) := rfl

@[simp] theorem applyRole_hist (p : Phase) (r : Role) (d : Float32Bits) (s : State) :
    (applyRole p r d s).hist = s.hist ++ [.applyRole p r] := rfl

/-- No phase of a row has two roles (rule R191). -/
theorem phaseWith_injective (k : StepIndex) : Function.Injective (phaseWith (roleTable k)) :=
  fun r r' h => ((roleTable_get k r _).2 h).symm.trans ((roleTable_get k r' _).2 rfl)

/-- Lowering a line raises no other. -/
theorem enableCount_set_false_le (en : Three Bool) (p : Phase) :
    enableCount (en.set p false) ≤ enableCount en := by
  match p with
  | 0 | 1 | 2 => simp [enableCount, Three.set]

/-- A phase that is not the Line phase is Floating or Neutral, and both are lowered. -/
theorem get_floating_neutral_lowered (k : StepIndex) (en : Three Bool) {p : Phase}
    (hp : p ≠ phaseWith (roleTable k) .line) :
    ((en.set (phaseWith (roleTable k) .floating) false).set
      (phaseWith (roleTable k) .neutral) false).get p = false := by
  cases hrole : (roleTable k).get p with
  | line => exact absurd ((roleTable_get k .line p).1 hrole).symm hp
  | neutral => rw [(roleTable_get k .neutral p).1 hrole, Three.get_set_same]
  | floating =>
    rw [(roleTable_get k .floating p).1 hrole, Three.get_set, Three.get_set_same, ite_self]

/-- Settles O59: Floating and Neutral lower their lines, and Line, the third phase, is raised last. -/
theorem rolesNeverOverlap : Obligations.RolesNeverOverlap := by
  intro s k row d s1 s2 s3
  have hstep : doSetStep k s = s3 := rfl
  have hen : (readDuty s).2.en = s.en := by rw [readDuty_state]
  have hhist : (readDuty s).2.hist = s.hist := by rw [readDuty_state]
  have hs1 : s1.en = s.en.set (phaseWith row .floating) false := by simp [s1, hen]
  have hs2 : s2.en = s1.en.set (phaseWith row .neutral) false := by simp [s2]
  refine ⟨hstep, by simp [s3, s2, s1, hhist], (phaseWith_injective k).ne (by decide),
    (phaseWith_injective k).ne (by decide), (phaseWith_injective k).ne (by decide),
    fun p hp => ?_, fun hone => ?_⟩
  · rw [hs2, hs1]
    exact get_floating_neutral_lowered k s.en hp
  · have h1 : enableCount s1.en ≤ 1 := hs1 ▸ (enableCount_set_false_le _ _).trans hone
    refine ⟨h1, hs2 ▸ (enableCount_set_false_le _ _).trans h1, ?_⟩
    rw [← hstep, doSetStep_en]
    exact enableCount_enableRow k

end Sys2Proof.Machine
end

section
/-! The commutation clock and the step counter of 45_clock_step.md: the expiries that pay for the TICKs,
the service of one expiry, the commands of the counter and of the period, and the events that do not
happen. -/

namespace Sys2Proof.Machine

/-! ## Every TICK is paid for by an expiry (rule R229) -/

theorem ticks_append (hist rs : List HistRecord) : ticks (hist ++ rs) = ticks hist + ticks rs :=
  List.countP_append

theorem expiries_append (hist rs : List HistRecord) :
    expiries (hist ++ rs) = expiries hist + expiries rs :=
  List.countP_append

/-- The role records of a do_set_step are neither TICKs nor expiries. -/
theorem ticks_roleRecords_append (k : StepIndex) (rs : List HistRecord) :
    ticks (roleRecords k ++ rs) = ticks rs := by
  have hroles : ticks (roleRecords k) = 0 := by revert k; decide
  rw [ticks_append, hroles, Nat.zero_add]

theorem expiries_roleRecords_append (k : StepIndex) (rs : List HistRecord) :
    expiries (roleRecords k ++ rs) = expiries rs := by
  have hroles : expiries (roleRecords k) = 0 := by revert k; decide
  rw [expiries_append, hroles, Nat.zero_add]

/-- New records keep the claim when the TICKs among them, and the expiry pending after them, are paid for
by the expiries among them and the one pending before. -/
theorem State.TicksPaidFor.of_records {s t : State} (hs : s.TicksPaidFor) (rs : List HistRecord)
    (hhist : t.hist = s.hist ++ rs)
    (hpaid : ticks rs + t.ctIf.toNat ≤ expiries rs + s.ctIf.toNat) : t.TicksPaidFor := by
  rw [State.TicksPaidFor] at hs ⊢
  rw [hhist, ticks_append, expiries_append]
  omega

theorem Change.ticksPaidFor {i : Instr} {s t : State} (h : Change i s t) (hs : s.TicksPaidFor) :
    t.TicksPaidFor := by
  cases h with
  | stays => exact hs
  | ctExpire => exact hs.of_records _ rfl (Nat.le_add_right 1 _)
  | tick _ _ _ _ hct =>
    refine hs.of_records _ (List.append_assoc ..) ?_
    rw [ticks_roleRecords_append, expiries_roleRecords_append, hct]
    exact Nat.le_refl 1
  | setStep =>
    refine hs.of_records _ (List.append_assoc ..) ?_
    rw [ticks_roleRecords_append, expiries_roleRecords_append]
    exact Nat.le_refl _
  | reset => exact Nat.le_refl 0
  | _ => exact hs.of_records _ rfl (Nat.le_refl _)

theorem SameBlock.ticksPaidFor {s u : State} (h : SameBlock s u) (hs : s.TicksPaidFor) :
    u.TicksPaidFor := by
  unfold SameBlock at h
  rw [h]
  exact hs

/-- Settles O50 by `step_keeps`: only CT_EXPIRE sets CT_IF, TICK clears it, and both stand in the
history. -/
theorem ticksNeverExceedExpiries : Obligations.TicksNeverExceedExpiries := by
  intro s t hs h
  exact step_keeps (P := State.TicksPaidFor) SameBlock.ticksPaidFor Change.ticksPaidFor
    (fun _ hs => hs.of_records _ rfl (Nat.le_refl _))
    (fun _ _ hs => hs.of_records _ rfl (Nat.le_refl _)) hs h

/-! ## The service of an expiry (rules R226 to R228) -/

/-- The step after `k` in the fixed direction, as a number (rules R220, R221 and R227). -/
theorem advance_val (d : Direction) (k : StepIndex) :
    (advance d k).val = (k.val + if d = .fwd then 1 else 5) % 6 := by
  cases d <;> rfl

/-- The service as the output table gives its step (44_commutation.md rule R200). -/
theorem serviceTick_eq (s : State) : serviceTick s = { s with
    drawCount := (readDuty s).2.drawCount
    cmp := compareRow s.stepIndex (dutyToCompare (readDuty s).1 s.period) s.period
    en := enableRow s.stepIndex
    stepIndex := advance s.dir s.stepIndex
    ctIf := false
    hist := s.hist ++ roleRecords s.stepIndex ++ [.tick s.stepIndex] } := by
  rw [serviceTick, doSetStep_eq]
  rfl

/-- Settles O28: do_set_step's row of the output table with DUTY as it was written or drawn, then the
counter's advance. -/
theorem tickCompletes : Obligations.TickCompletes := by
  intro s hrun hct
  refine ⟨(readDuty s).1, (readDuty s).2.drawCount, advance s.dir s.stepIndex, fun hwritten => ?_,
    fun hunwritten => ?_, advance_val s.dir s.stepIndex, ?_⟩
  · rw [readDuty_written hwritten]
    exact ⟨rfl, rfl⟩
  · obtain ⟨d, hd, hread⟩ := readDuty_unwritten hunwritten
    rw [hread]
    exact ⟨hd, rfl⟩
  · rw [exec_tick_enabled hrun hct, serviceTick_eq]

/-- Settles O27: CT_EXPIRE is enabled in every state, and its effect is CT_IF and its record (rule
R226). -/
theorem ctExpireCompletes : Obligations.CtExpireCompletes := by
  intro s
  have henabled : enabled .ctExpire s = true := rfl
  rw [exec, execCtExpire, whenEnabled_true henabled]
  rfl

/-! ## The commands of the counter and of the period -/

/-- Settles O17: each command's effect is the counter's advance, its record and its response (rules R220
to R223). -/
theorem stepCounterCommandsComplete : Obligations.StepCounterCommandsComplete := by
  refine ⟨decodeCommand_eq_ok_iff.2 ⟨rfl, rfl⟩, decodeCommand_eq_ok_iff.2 ⟨rfl, rfl⟩,
    fun s hready => ⟨⟨advanceForward s.stepIndex, rfl, ?_⟩, advanceBackward s.stepIndex, rfl, ?_⟩⟩
  · rw [exec, execAdvanceFwd, hostWrite_ready hready]
    rfl
  · rw [exec, execAdvanceBwd, hostWrite_ready hready]
    rfl

theorem clampCommPeriod_eq_max (us : U32) : clampCommPeriod us = BitVec.ofNat 32 (max us.toNat 1) := by
  rw [clampCommPeriod]
  split
  · next hzero => rw [hzero]; rfl
  · next hne =>
    have hpos : 1 ≤ us.toNat := Nat.one_le_iff_ne_zero.2 fun h => hne (BitVec.eq_of_toNat_eq h)
    rw [Nat.max_eq_left hpos, BitVec.ofNat_toNat, BitVec.setWidth_eq]

/-- Settles O18: SET_COMM_PERIOD's effect is COMM_PERIOD, its record and its response (rule R225). -/
theorem setCommPeriodCompletes : Obligations.SetCommPeriodCompletes := by
  refine fun us => ⟨decodeCommand_eq_ok_iff.2 ⟨rfl, rfl⟩, fun s hready => ?_⟩
  rw [exec, execSetCommPeriod, hostWrite_ready hready, clampCommPeriod_eq_max]
  rfl

/-! ## The events that do not happen -/

/-- The meaning of every instruction is gated by `enabled` (log 2). -/
theorem exec_disabled {i : Instr} {s : State} (h : enabled i s = false) : exec i s = .next s := by
  cases i <;> exact whenEnabled_false h (fun _ => _) s

/-- Settles O45 by `exec_disabled`: the fields are those of each event's enabling condition. -/
theorem disabledStepsChangeNothing : Obligations.DisabledStepsChangeNothing := by
  refine fun s => ⟨fun h => exec_disabled ?tick, fun h => exec_disabled h,
    fun v h => exec_disabled ?beat, fun h => exec_disabled h,
    fun stop h => ⟨exec_disabled h, exec_disabled h⟩, fun h => exec_disabled ?begin,
    fun h => exec_disabled ?read, fun h => exec_disabled ?err, fun h => exec_disabled ?status⟩
  case tick => simpa [enabled, tickEnabled, imp_iff_not_or] using h
  case beat => simpa [enabled, convBeatEnabled, imp_iff_not_or, or_assoc] using h
  case begin => simpa [enabled, tcBeginEnabled, imp_iff_not_or, or_assoc] using h
  case read => simpa [enabled, tcReadEnabled, imp_iff_not_or] using h
  case err => simpa [enabled, errHandleEnabled, imp_iff_not_or] using h
  case status => simpa [enabled, adcStatusHandleEnabled, imp_iff_not_or] using h

end Sys2Proof.Machine
end

section
/-! The interface of 46_interface_reads.md: NOP, the three reads, and the operands that make a read an
illegal word. -/

namespace Sys2Proof.Machine

/-! ## NOP (rule R240) -/

theorem encode_nop : encode .nop = 0 := rfl

theorem decodeCommand_eq_nop_iff {w : Command} : decodeCommand w = .ok .nop ↔ w = 0 := by
  rw [decodeCommand_eq_ok_iff, encode_nop, eq_comm (a := 0)]
  exact and_iff_right rfl

/-- Settles O11: only the all-zero word decodes to NOP, whose effect is its record and its response, or
its refusal while HALTED (rules R107 and R240). -/
theorem nopCompletes : Obligations.NopCompletes := by
  refine ⟨fun _ _ => decodeCommand_eq_nop_iff, fun s hready => ?_, fun s hidle hhalted => ?_⟩
  · rw [exec, execNop, hostWrite_ready hready]
    rfl
  · rw [exec, execNop, hostWrite_refused hidle hhalted, encode_nop]
    rfl

/-! ## READ_NEUTRAL (rule R241) -/

/-- Settles O21: NEUTRAL as it was written or drawn, and a read moves nothing but the draws. -/
theorem readNeutralCompletes : Obligations.ReadNeutralCompletes := by
  refine ⟨decodeCommand_eq_ok_iff.2 ⟨rfl, rfl⟩, fun s hidle =>
    ⟨(readNeutral s).1, (readNeutral s).2.drawCount, fun hwritten => ?_, fun hunwritten => ?_, ?_⟩⟩
  · rw [readNeutral_written hwritten]
    exact ⟨rfl, rfl⟩
  · obtain ⟨v, hread⟩ := readNeutral_unwritten hunwritten
    rw [hread]
    rfl
  · rw [exec, execReadNeutral, hostRead_served hidle, readNeutral_state]
    rfl

/-! ## A selector that names nothing (30_encoding.md rule R109) -/

/-- `w[63:32]` holds the opcode, the selector and the immediate (30_encoding.md rule R101). -/
theorem highHalf_commandWord (op sel : U8) (imm : U16) (data : U32) :
    highHalf (commandWord op sel imm data) = op ++ sel ++ imm := by
  rw [highHalf, commandWord]
  exact BitVec.extractLsb'_append_eq_left

theorem commandWord_selector (op sel : U8) : commandWord op sel 0#16 0#32 = op ++ sel ++ 0#48 := by
  rw [commandWord, BitVec.append_assoc]
  rfl

theorem hostRead_halts {i : Instr} {op sel : U8} {s : State}
    (hword : encode i = commandWord op sel 0#16 0#32) (hidle : s.tch = .idle)
    (hrun : s.halted = false) :
    hostRead i none s = .next (haltWith .illegalCommand (op ++ sel ++ 0#16) s) := by
  rw [hostRead_rejected hidle, rejectWord_running hrun, hword, highHalf_commandWord]

theorem hostRead_refused {i : Instr} {op sel : U8} {s : State}
    (hword : encode i = commandWord op sel 0#16 0#32) (hidle : s.tch = .idle)
    (hhalted : s.halted = true) :
    hostRead i none s = .next (refuseWord (op ++ sel ++ 0#48) s) := by
  rw [hostRead_rejected hidle, rejectWord_halted hhalted, hword, commandWord_selector]

/-! ## READ_ERRCNT (rule R242) -/

theorem mem_errorTable {c : Phase} {n : U32} {s : State} (h : (c, n) ∈ errorTable s) :
    errorCounter c s = n := by
  have htable : ∀ row ∈ errorTable s, errorCounter row.1 s = row.2 := by
    simp [errorTable, errorCounter]
  exact htable (c, n) h

theorem execReadErrcnt_named (c : Phase) {s : State} (hidle : s.tch = .idle) :
    execReadErrcnt (BitVec.ofNat 8 c.val) s =
      .next (record (.readErrCnt c) (respond (errorCounter c s) s)) := by
  rw [execReadErrcnt, phaseOf_phase]
  exact hostRead_served hidle

theorem execReadErrcnt_unnamed {sel : U8} (hsel : 3 ≤ sel.toNat) (s : State) :
    execReadErrcnt sel s = hostRead (.readErrcnt sel) none s := by
  rw [execReadErrcnt, phaseOf_none.2 hsel, Option.map_none]

/-- Settles O22: SEL names a counter, which is answered, or none, and the word is rejected. -/
theorem readErrcntAnswersTheCounter : Obligations.ReadErrcntAnswersTheCounter := by
  refine ⟨fun sel => decodeCommand_eq_ok_iff.2 ⟨rfl, rfl⟩, fun s hidle =>
    ⟨fun c n hrow => ?_, fun sel hsel hrun => ?_, fun sel hsel hhalted => ?_⟩⟩
  · rw [exec, execReadErrcnt_named c hidle, mem_errorTable hrow]
    rfl
  · rw [exec, execReadErrcnt_unnamed hsel, hostRead_halts rfl hidle hrun]
    rfl
  · rw [exec, execReadErrcnt_unnamed hsel, hostRead_refused rfl hidle hhalted]
    rfl

/-! ## READ_REG (rule R243) -/

theorem regOf_none {sel : U8} (h : 0x11 ≤ sel.toNat) : regOf sel = none := by
  unfold regOf
  split
  case h_18 => rfl
  all_goals omega

theorem execReadReg_unnamed {sel : U8} (hsel : 0x11 ≤ sel.toNat) (s : State) :
    execReadReg sel s = hostRead (.readReg sel) none s := by
  rw [execReadReg, regOf_none hsel, Option.map_none]

/-- Row by row: the number names the register. -/
theorem regOf_of_mem_readTable {sel : U8} {r : Reg} {v : U32} {written : Bool} {s : State}
    (h : (sel, r, v, written) ∈ readTable s) : regOf sel = some r := by
  have htable : ∀ row ∈ readTable s, regOf row.1 = some row.2.1 := by simp [readTable, regOf]
  exact htable (sel, r, v, written) h

/-- Row by row: a written register reads as it is stored, with no draw. -/
theorem readRegister_of_mem_readTable {sel : U8} {r : Reg} {v : U32} {s : State}
    (h : (sel, r, v, true) ∈ readTable s) : readRegister r s = (v, s) := by
  have htable : ∀ row ∈ readTable s, row.2.2.2 = true →
      readRegister row.2.1 s = (row.2.2.1, s) := by
    simp +contextual [readTable, readRegister, readDuty_written, readNeutral_written, readSample,
      Three.get]
  exact htable (sel, r, v, true) h rfl

/-- Settles O23: each row of the register map is answered as it stands in the table. -/
theorem readRegAnswersTheRegister : Obligations.ReadRegAnswersTheRegister := by
  intro s hidle sel r v hrow
  rw [exec_readReg_named (regOf_of_mem_readTable hrow) hidle, readRegister_of_mem_readTable hrow]
  rfl

/-- Settles O24: a number above the map names no register, and the word is rejected. -/
theorem readRegReservedNumberIsIllegal : Obligations.ReadRegReservedNumberIsIllegal := by
  refine fun s sel hidle hsel => ⟨fun hrun => ?_, fun hhalted => ?_⟩
  · rw [exec, execReadReg_unnamed hsel, hostRead_halts rfl hidle hrun]
    rfl
  · rw [exec, execReadReg_unnamed hsel, hostRead_refused rfl hidle hhalted]
    rfl

end Sys2Proof.Machine
end

section
/-! The exceptions of 60_exceptions.md: the halt and what it stops, the hold of HOST, the answer of every
step, the order of TICK and the sense handlers, and the service of an expiry in a fair run. -/

namespace Sys2Proof.Machine

/-! ## The halt (rules R262, R264 and R265) -/

/-- The gate of a command that is no read refuses its word (30_encoding.md rule R109). -/
theorem exec_refused {i : Instr} {s : State} (hhalted : s.halted = true) (hidle : s.tch = .idle)
    (hcommand : i.isCommand = true) (hread : i.isRead = false) :
    exec i s = .next (refuseWord (encode i) s) := by
  unfold exec execNop execSetDuty execSetPeriod execEnable execSetStep execAdvanceFwd execAdvanceBwd
    execSetCommPeriod execPwmSetDuty execPullPhase
  cases i with
  | nop | setDuty | setPeriod | enable | setStep | advanceFwd | advanceBwd | setCommPeriod | pwmSetDuty
  | pullPhase => exact hostWrite_refused hidle hhalted
  | readNeutral | readErrcnt | readReg => exact nomatch hread
  | _ => exact nomatch hcommand

/-- Settles O40: the refusal of a word is its record and the answer (0, 0). -/
theorem haltedRefusesWrites : Obligations.HaltedRefusesWrites := fun _ _ => exec_refused

theorem enabled_handler_of_halted {i : Instr} {s : State} (hhalted : s.halted = true)
    (hhandler : i.isHandler = true) : enabled i s = false := by
  cases i with
  | tick | tcBegin | tcRead | errHandle | adcStatusHandle =>
    simp [enabled, tickEnabled, tcBeginEnabled, tcReadEnabled, errHandleEnabled,
      adcStatusHandleEnabled, hhalted]
  | _ => exact nomatch hhandler

/-- Settles O42: no handler is enabled while HALTED (rule R264), and no trigger while RUN = 0
(43_sense.md rule R163). -/
theorem haltStopsSoftware : Obligations.HaltStopsSoftware := by
  rintro s i hhalted (hhandler | ⟨rfl, hrun⟩)
  · exact exec_disabled (enabled_handler_of_halted hhalted hhandler)
  · exact exec_disabled hrun

/-- Settles O43: while HALTED only the reads, the refusals and the hardware events happen, and they write
no output and clear no flag; every other change needs HALTED = 0. -/
theorem haltIsLeftOnlyByReset : Obligations.HaltIsLeftOnlyByReset := by
  intro i s t hhalted hreset h
  cases exec_change h with
  | stays | refuses | readNeutral | readErrcnt | readReg | ctExpire | triggerIgnored | triggerStarts
  | convBeat | convDrop | dmaTe | dmaDme =>
    refine ⟨hhalted, rfl, rfl, rfl, rfl, rfl, rfl, rfl, rfl, rfl, ?_⟩
    -- What is left: each flag is kept, or set by its own event.
    simp +contextual
  | reset _ p us d => exact absurd ⟨p, us, d, rfl⟩ hreset
  | nop _ hready | setDuty _ _ hready | setPeriod _ _ hready | enable _ _ hready
  | setStep _ _ _ _ _ hready | advanceFwd _ hready | advanceBwd _ hready | setCommPeriod _ _ hready
  | pwmSetDuty _ _ _ _ hready | pullPhase _ _ _ _ hready =>
    exact nomatch hhalted.symm.trans hready.2
  | halts _ _ _ _ _ hrun | tick _ _ _ hrun | tcBegin _ hrun | tcReadOn _ _ _ hrun
  | tcReadLast _ _ hrun | errHandle _ hrun | adcStatusHandle _ hrun =>
    exact nomatch hhalted.symm.trans hrun

/-! ## The hold of HOST (rule R270) -/

theorem enabled_command {i : Instr} (hcommand : i.isCommand = true) (s : State) :
    enabled i s = hostEnabled s := by
  cases i with
  | nop | setDuty | setPeriod | enable | setStep | advanceFwd | advanceBwd | setCommPeriod | pwmSetDuty
  | pullPhase | readNeutral | readErrcnt | readReg => rfl
  | _ => exact nomatch hcommand

theorem hostEnabled_of_reading {s : State} (hreading : s.tch ≠ .idle) : hostEnabled s = false :=
  beq_false_of_ne hreading

theorem hostTurn_of_reading {s : State} (hreading : s.tch ≠ .idle) : hostTurn s = .next s := by
  rw [hostTurn, hostEnabled_of_reading hreading, if_neg Bool.false_ne_true]

/-- Settles O44: HOST's commands are not enabled, and its turn takes no word. -/
theorem hostIsHeldWhileTheHandlerRuns : Obligations.HostIsHeldWhileTheHandlerRuns :=
  fun s hreading =>
    ⟨fun _ hcommand =>
      exec_disabled ((enabled_command hcommand s).trans (hostEnabled_of_reading hreading)),
    fun _ hturn => (step_of_host hturn).trans (hostTurn_of_reading (by exact hreading))⟩

/-! ## Every step answers (rule R281) -/

/-- The meaning of every instruction is a next state, enabled or not. -/
theorem exec_answers (i : Instr) (s : State) : ∃ t, exec i s = .next t := by
  cases i <;> exact ⟨_, rfl⟩

theorem hostTurn_answers (s : State) : ∃ t, hostTurn s = .next t := by
  unfold hostTurn
  split
  · split
    · exact exec_answers _ _
    · exact ⟨_, rfl⟩
  · exact ⟨_, rfl⟩

/-- Settles O48: HOST's turn and every agent's step answer, and CT_EXPIRE is always enabled
(45_clock_step.md rule R226). -/
theorem stepAlwaysAnswers : Obligations.StepAlwaysAnswers := by
  refine fun s => ⟨?_, rfl⟩
  unfold step
  split
  · exact hostTurn_answers _
  · exact exec_answers _ _

/-! ## TICK and the sense handlers in either order (rule R271) -/

theorem readDuty_value (s : State) : (readDuty s).1 =
    if s.dutyValid then s.duty else BitVec.ofNat 32 (drawn (oneMagnitude + 1) s) := by
  unfold readDuty
  split <;> rfl

theorem readDuty_drawCount (s : State) : (readDuty s).2.drawCount =
    if s.dutyValid then s.drawCount else s.drawCount + 1 := by
  unfold readDuty
  split <;> rfl

theorem readSample_value (k : Phase) (s : State) : (readSample k s).1 =
    if s.sampleValid.get k then s.sample.get k else BitVec.ofNat 16 (drawn (2 ^ s.adcBits) s) := by
  unfold readSample
  split <;> rfl

theorem readSample_drawCount (k : Phase) (s : State) : (readSample k s).2.drawCount =
    if s.sampleValid.get k then s.drawCount else s.drawCount + 1 := by
  unfold readSample
  split <;> rfl

theorem serviceTick_hist (s : State) :
    (serviceTick s).hist = s.hist ++ (roleRecords s.stepIndex ++ [.tick s.stepIndex]) := by
  rw [serviceTick_eq, List.append_assoc]

theorem roleRecords_length (k : StepIndex) : (roleRecords k).length = 3 := by
  revert k; decide

theorem execAll_two {i j : Instr} {s t u : State} (hi : exec i s = .next t) (hj : exec j t = .next u) :
    execAll [i, j] s = .next u := by
  rw [execAll_cons hi, execAll_cons hj, execAll]

theorem enabled_serviceTick {h : Instr} (hsense : h.isSense = true) (s : State) :
    enabled h (serviceTick s) = enabled h s := by
  rw [serviceTick_eq]
  cases h with
  | pwmTrigger | adcConvBeat | adcConvDrop | dmaTe | dmaDme | tcBegin | tcRead | errHandle
  | adcStatusHandle => rfl
  | _ => exact nomatch hsense

/-- TICK and `h` complete in both orders, and the two ends differ only in the order of the records: the
three roles, the TICK and one of `h`. -/
def State.CommutesWithTick (s : State) (h : Instr) : Prop :=
  ∃ t t', execAll [.tick, h] s = .next t ∧ execAll [h, .tick] s = .next t' ∧
    { t with hist := [] } = { t' with hist := [] } ∧ t.hist.Perm t'.hist ∧
    t.hist.length = s.hist.length + 5

/-- A sense event that leads from `s` to `u` with the one record `r` commutes with TICK when from the
serviced state it leads to the service of `u`, but for where `r` stands. -/
theorem tick_commutes {s u : State} {h : Instr} {r : HistRecord} (hsense : h.isSense = true)
    (htick : enabled .tick s = true) (hfirst : exec h s = .next u) (hrecord : u.hist = s.hist ++ [r])
    (hsecond : exec h (serviceTick s) =
      .next { serviceTick u with hist := (serviceTick s).hist ++ [r] }) : s.CommutesWithTick h := by
  obtain ⟨hstep, -, -, -, -, -, -, -, -, hct, hrun, -⟩ := (exec_change hfirst).sameCommutation hsense
  have htick' : enabled .tick u = true := by
    rw [enabled, tickEnabled, ← hrun, ← hct]; exact htick
  refine ⟨_, _, execAll_two (whenEnabled_true htick _ s) hsecond,
    execAll_two hfirst (whenEnabled_true htick' _ u), rfl, ?_, ?_⟩
  · show ((serviceTick s).hist ++ [r]).Perm (serviceTick u).hist
    rw [serviceTick_hist, serviceTick_hist, hrecord, ← hstep, List.append_assoc s.hist,
      List.append_assoc s.hist]
    exact List.perm_append_comm.append_left s.hist
  · simp [serviceTick_hist, roleRecords_length]

/-- TICK and TC_READ share nothing but the number of draws, and where one of them makes no draw the other
draws the same value in both orders (log 4). -/
theorem readWord_serviceTick {s : State} {k : Phase}
    (hdraws : s.dutyValid = true ∨ s.sampleValid.get k = true) : readWord k (serviceTick s) =
      { serviceTick (readWord k s) with
        hist := (serviceTick s).hist ++ [.tcRead k (readSample k s).1] } := by
  by_cases hk : k = 2
  · subst hk
    obtain hwritten | hwritten := hdraws
    all_goals
      simp only [readWord_last, serviceTick_eq, readDuty_value, readDuty_drawCount, readSample_value,
        readSample_drawCount, hwritten]
      rfl
  · obtain hwritten | hwritten := hdraws
    all_goals
      simp only [readWord_on hk, serviceTick_eq, readDuty_value, readDuty_drawCount, readSample_value,
        readSample_drawCount, hwritten]
      rfl

theorem tick_commutes_tcRead {s : State} {k : Phase} (htick : enabled .tick s = true)
    (hrun : s.halted = false) (hk : s.tch = .read k)
    (hdraws : s.dutyValid = true ∨ s.sampleValid.get k = true) : s.CommutesWithTick .tcRead := by
  have hrun' : (serviceTick s).halted = false := by rw [serviceTick_eq]; exact hrun
  have hk' : (serviceTick s).tch = .read k := by rw [serviceTick_eq]; exact hk
  refine tick_commutes (r := .tcRead k (readSample k s).1) rfl htick (exec_tcRead_reading hrun hk) ?_
    ((exec_tcRead_reading hrun' hk').trans (congrArg _ (readWord_serviceTick hdraws)))
  rw [readWord, record_hist]
  split <;> rw [readSample_state]

/-- The same for an effect `f` where it is enabled; TICK enables and disables no sense event. -/
theorem tick_commutes_effect {s : State} {h : Instr} {f : State → State} {r : HistRecord}
    (hsense : h.isSense = true) (htick : enabled .tick s = true) (henabled : enabled h s = true)
    (hexec : ∀ u, exec h u = whenEnabled (enabled h u) f u) (hrecord : (f s).hist = s.hist ++ [r])
    (hservice : f (serviceTick s) =
      { serviceTick (f s) with hist := (serviceTick s).hist ++ [r] }) : s.CommutesWithTick h := by
  have hafter : enabled h (serviceTick s) = true := (enabled_serviceTick hsense s).trans henabled
  refine tick_commutes hsense htick ((hexec s).trans (whenEnabled_true henabled f s)) hrecord ?_
  rw [hexec, whenEnabled_true hafter, hservice]

/-- Settles O58: TC_READ by `tick_commutes_tcRead`; TC_BEGIN, ERR_HANDLE and ADC_STATUS_HANDLE make no
draw and write nothing that TICK reads. -/
theorem tickCommutesWithTheHandlers : Obligations.TickCommutesWithTheHandlers := by
  intro s h hmem htick henabled hdraws
  simp only [List.mem_cons, List.not_mem_nil, or_false] at hmem
  obtain rfl | rfl | rfl | rfl := hmem
  case inr.inl =>
    obtain ⟨hrun, hreading⟩ : s.halted = false ∧ s.tch ≠ .idle := by
      simpa [enabled, tcReadEnabled] using henabled
    cases hk : s.tch with
    | idle => exact absurd hk hreading
    | read k =>
      exact tick_commutes_tcRead htick hrun hk ((hdraws rfl).imp_right fun hwritten => hwritten k hk)
  all_goals
    refine tick_commutes_effect rfl htick henabled (fun _ => rfl) rfl ?_
    simp only [serviceTick_eq, readDuty_value, readDuty_drawCount]
    rfl

/-! ## The service of an expiry in a fair run (rule R283) -/

theorem SameBlock.enabled_eq {s u : State} (h : SameBlock s u) (i : Instr) :
    enabled i u = enabled i s := by
  unfold SameBlock at h
  rw [h]
  cases i <;> rfl

/-- A step that takes an instruction runs it from a state that is `s` but for the inputs. -/
theorem step_of_nextInstr {s : State} {i : Instr} (h : nextInstr s = some i) :
    ∃ u, SameBlock s u ∧ step s = exec i u := by
  have hpop := sameBlock_popTurn s
  unfold nextInstr at h
  cases hturn : nextTurn s with
  | agent j =>
    rw [hturn] at h
    cases h
    exact ⟨popTurn s, hpop, by rw [step, hturn]⟩
  | host =>
    rw [hturn] at h
    obtain ⟨hhost, hword⟩ := Option.ite_none_right_eq_some.1 h
    have hserved : hostEnabled (popTurn s) = true := (hpop.enabled_eq .nop).trans hhost
    refine ⟨popWord (popTurn s), hpop.popWord, ?_⟩
    rw [step, hturn]
    dsimp only
    rw [hostTurn, if_pos hserved, toOption_eq_some.1 hword]

theorem Run.Steps.ctIf_of_takes_tick {r : Run} (hsteps : r.Steps) {m : Nat} (h : r.Takes m .tick) :
    (r.states (m + 1)).ctIf = false := by
  obtain ⟨hnext, henabled⟩ := h
  obtain ⟨u, hu, hstep⟩ := step_of_nextInstr hnext
  have hstate : SameBlock (r.states m) (r.input m) := rfl
  have htick : enabled .tick u = true :=
    (hu.enabled_eq .tick).trans ((hstate.enabled_eq .tick).trans henabled)
  have hservice : step (r.input m) = .next (serviceTick u) := hstep.trans (whenEnabled_true htick _ u)
  rw [Host.Outcome.next.inj ((hsteps m).symm.trans hservice)]
  rfl

theorem ctIf_or_halted_of_tick_disabled {s : State} (h : enabled .tick s = false) :
    s.ctIf = false ∨ s.halted = true := by
  simpa [enabled, tickEnabled, or_comm, imp_iff_not_or] using h

/-- Settles O60: by fairness (b) TICK is taken, which clears CT_IF, or it is not enabled at a later state,
where CT_IF is 0 or the block is HALTED. -/
theorem fairRunsServiceTheExpiry : Obligations.FairRunsServiceTheExpiry := by
  intro r hsteps hfair n _
  obtain ⟨m, hnm, hdisabled | htakes⟩ := hfair.handler .tick (by decide) n
  · exact ⟨m, hnm, ctIf_or_halted_of_tick_disabled hdisabled⟩
  · exact ⟨m + 1, Nat.le_succ_of_le hnm, .inl (hsteps.ctIf_of_takes_tick htakes)⟩

end Sys2Proof.Machine
end

section
/-! RESET and the state it leaves, of 70_reset_and_hazards.md. -/

namespace Sys2Proof.Machine

/-! ## RESET (rules R290 and R291) -/

theorem exec_reset (p : U16) (us : U32) (d : Direction) (s : State) :
    exec (.reset p us d) s = .next (resetBlock p us d s) := by
  have henabled : enabled (.reset p us d) s = true := rfl
  rw [exec, execReset, whenEnabled_true henabled]

theorem clampCommPeriod_of_ne_zero {us : U32} (hus : us ≠ 0) : clampCommPeriod us = us := if_neg hus

/-- Settles O38: RESET is always enabled and constructs the block anew from its arguments, where only the
commutation period passes through a clamp, which keeps a period of at least 1. -/
theorem resetCompletes : Obligations.ResetCompletes := by
  intro s p us d hus
  refine ⟨resetBlock p us d s, exec_reset p us d s, ?_⟩
  simp [resetBlock, State.constructed, clampCommPeriod_of_ne_zero hus]

/-! ## The state right after RESET (rule R292) -/

section
variable (p : U16) (us : U32) (d : Direction) (bits : Nat) (realign : Bool)

/-- No flag is set and the sense handler is idle. -/
theorem constructed_handler_disabled {i : Instr} (hi : i ∈ handlerSteps) :
    enabled i (State.constructed p us d bits realign) = false := by
  simp only [handlerSteps, List.mem_cons, List.not_mem_nil, or_false] at hi
  rcases hi with rfl | rfl | rfl | rfl | rfl <;> rfl

/-- STATUS shows DIR, at bit 3, and DMA_ACTIVE, at bit 10, alone (10_state.md rule R53). -/
theorem statusView_constructed : statusView (State.constructed p us d bits realign) =
    if d = .fwd then 0x00000400 else 0x00000408 := by
  have hbits : statusView (State.constructed p us d bits realign) =
      bitAt 3 (d == .bwd) ||| bitAt 10 true := by
    simp [statusView, State.constructed, bitAt, fieldAt, HaltCause.code]
  rw [hbits]
  cases d <;> decide

theorem sensePosView_constructed : sensePosView (State.constructed p us d bits realign) = 0 := by
  simp [sensePosView, State.constructed, bitAt, fieldAt]

end

/-- Settles O39: the reset state is a constructed one, whose fields are its reset values. -/
theorem stateAfterReset : Obligations.StateAfterReset :=
  ⟨rfl, rfl, rfl, rfl, rfl, rfl, rfl, rfl, rfl, rfl, rfl, rfl, rfl, rfl, rfl, rfl,
    fun _ => constructed_handler_disabled _ _ _ _ _, statusView_constructed _ _ _ _ _,
    sensePosView_constructed _ _ _ _ _⟩

end Sys2Proof.Machine
end
